-- ==== Sys2Proof/Word.lean ====
section
/-! DEFINITION. The byte of the links, and nothing else: every other number of the part is a Nat or an Int with its range
stated where it is used. -/

namespace Sys2Proof

/-- A byte of a frame, of a request or of an image. -/
abbrev Byte := BitVec 8

end Sys2Proof
end

