-- ==== Sys2Proof/Syntax.lean ====
section
/-! DEFINITION. The commands of the K61: one constructor per row of spec/opcode_table.json. A command is one whole step of
the part (95_what_each_step_holds.md); it carries what the event itself brings. A request row carries the source link
alone: the request's arguments are bytes of the frame at the head of that link's queue (R26, R27; log 3). -/

namespace Sys2Proof

/-- A reference link, and the source on it (01, 03). -/
inductive Link where
  | a
  | b
deriving DecidableEq, Repr

/-- The other link. -/
def Link.other : Link → Link
  | .a => .b
  | .b => .a

/-- A character as the receiver sampled it (R1): eight data bits, the parity bit (without meaning under parity NONE) and
the stop bit (true: sampled high). -/
structure RxChar where
  data : Byte
  parityBit : Bool
  stopBit : Bool
deriving DecidableEq, Repr

/-- What is outside the pins L0 to L7 at an event, bit k for line Lk: whether something outside drives the pin, and the
level it is driven to, or floats to when it is not driven (R178; log 10). -/
structure PinIn where
  driven : BitVec 8
  level : BitVec 8
deriving DecidableEq, Repr

/-- What stands on the two wires of a link at an event, beyond the state of its blocks (R1, R3, R20, R22): whether the start bit of an
inbound character has begun and its end has not, and how many characters of the reply being sent have begun (log 42). -/
structure WireIn where
  underWay : Bool
  begun : Nat
deriving DecidableEq, Repr

/-- The link of an event, with what stands on the wires that the event concerns. -/
structure LinkAndWire where
  link : Link
  wire : WireIn
deriving DecidableEq, Repr

/-- A station line (11). -/
inductive LineId where
  | l0 | l1 | l2 | l3 | l4 | l5 | l6 | l7
deriving DecidableEq, Repr

/-- A strobe (R181). -/
inductive Strobe where
  | minute | slot | second
deriving DecidableEq, Repr

/-- The input on which a pulse edge came (R42). -/
inductive PulseInput where
  | ppsA | ppsB | lineL6
deriving DecidableEq, Repr

/-- A rising edge on a pulse input, and the one on another input that falls in the same keying step and is taken after it, if
there is one (log 41). -/
structure PulseEdges where
  input : PulseInput
  also : Option PulseInput
deriving DecidableEq, Repr

/-- The commands, in the order of spec/opcode_table.json. -/
inductive Instr where
  /-- POWER_ON_RESET: RESET_N; `pins` are the levels at the end of the reset (R23, R185). -/
  | powerOnReset (pins : PinIn)
  /-- BYTE_RECEIVED: a character without fault (R1, R4). -/
  | byteReceived (l : Link) (c : RxChar)
  /-- CHARACTER_FAULT: a character with a FRAMING or PARITY fault (R1, R4). -/
  | characterFault (l : Link) (c : RxChar)
  /-- IDLE: the inbound wire stayed high for two character times (R2). -/
  | idle (l : Link)
  /-- LEAD_EXPIRY: the lead time of a return transmitter ran out (R18). -/
  | leadExpiry (l : Link)
  /-- REPLY_COMPLETE: the last stop bit of a reply left (R18), with what stands on the other link's wires (R23). -/
  | replyComplete (l : LinkAndWire)
  /-- TAIL_EXPIRY: the tail time of a return transmitter ran out (R18). -/
  | tailExpiry (l : Link)
  /-- SET_LINK (R36), with what stands on the target link's wires at the take (R20). -/
  | setLink (src : LinkAndWire)
  /-- SET_RETURN_LIMIT (R36). -/
  | setReturnLimit (src : Link)
  /-- DISABLE_LINK (R21), with what stands on the target link's wires at the take. -/
  | disableLink (src : LinkAndWire)
  /-- ENABLE_LINK (R22), with what stands on the target link's wires at the take. -/
  | enableLink (src : LinkAndWire)
  /-- SET_PERMISSIONS (R33). -/
  | setPermissions (src : Link)
  /-- SOFT_RESTART (R37). -/
  | softRestart (src : Link)
  /-- CONTROL_CARRIER_ON: a CONTROL whose carrier part is ON (R166). -/
  | controlCarrierOn (src : Link)
  /-- CONTROL_CARRIER_OFF: a CONTROL whose carrier part is OFF (R167). -/
  | controlCarrierOff (src : Link)
  /-- CONTROL_CODE_ON: a CONTROL whose code part is ON (R168). -/
  | controlCodeOn (src : Link)
  /-- CONTROL_CODE_OFF: a CONTROL whose code part is OFF (R169). -/
  | controlCodeOff (src : Link)
  /-- CONTROL_PROFILE_SELECT: a CONTROL with a profile-select part (R149). -/
  | controlProfileSelect (src : Link)
  /-- CONTROL_SPARE: a CONTROL with a spare part (R125). -/
  | controlSpare (src : Link)
  /-- SET_TIMEBASE (R59). -/
  | setTimebase (src : Link)
  /-- SET_BALANCE (R62). -/
  | setBalance (src : Link)
  /-- SET_CIVIL (R87). -/
  | setCivil (src : Link)
  /-- SET_WINDOWS (R89). -/
  | setWindows (src : Link)
  /-- ADD_LEAP (R81). -/
  | addLeap (src : Link)
  /-- DELETE_LEAP (R82). -/
  | deleteLeap (src : Link)
  /-- ADD_TRANSITION (R84). -/
  | addTransition (src : Link)
  /-- DELETE_TRANSITION (R85). -/
  | deleteTransition (src : Link)
  /-- WRITE_MAP (R104). -/
  | writeMap (src : Link)
  /-- COPY_MAP (R105). -/
  | copyMap (src : Link)
  /-- COMMIT_MAP (R108). -/
  | commitMap (src : Link)
  /-- CANCEL_COMMIT (R109). -/
  | cancelCommit (src : Link)
  /-- WRITE_TEST (R124). -/
  | writeTest (src : Link)
  /-- PUSH_OVERRIDE (R135). -/
  | pushOverride (src : Link)
  /-- POP_OVERRIDE (R137). -/
  | popOverride (src : Link)
  /-- REMOVE_OVERRIDE (R138). -/
  | removeOverride (src : Link)
  /-- WRITE_PROFILE (R147). -/
  | writeProfile (src : Link)
  /-- SET_RAMP (R164). -/
  | setRamp (src : Link)
  /-- SET_ASSEMBLY_SLOT (R114). -/
  | setAssemblySlot (src : Link)
  /-- WRITE_LINES (R186); `pins` are the levels found at the take (R178). -/
  | writeLines (src : Link) (pins : PinIn)
  /-- READ_MAP (R106). -/
  | readMap (src : Link)
  /-- READ_PROFILE (R148). -/
  | readProfile (src : Link)
  /-- READ_LISTS (R86). -/
  | readLists (src : Link)
  /-- READ_STACK (R139). -/
  | readStack (src : Link)
  /-- READ_WORD (R132). -/
  | readWord (src : Link)
  /-- READ_LINES (R187). -/
  | readLines (src : Link)
  /-- READ_STATUS (R191). -/
  | readStatus (src : Link)
  /-- UNKNOWN_REQUEST: the head request's name is not in the list, or its payload is too short (R27). -/
  | unknownRequest (src : Link)
  /-- KEYING_STEP: one millisecond of the station frequency (R40); `pins` are the levels sampled (R178). -/
  | keyingStep (pins : PinIn)
  /-- RISING_COMPLETE: the end of the step at which k reached Rc (R165). -/
  | risingComplete
  /-- FALLING_COMPLETE: the end of the step at which k reached 0 (R165). -/
  | fallingComplete
  /-- FLYWHEEL_WRAP: the second boundary of the step at which m passed from 999 to 0 (R41). -/
  | flywheelWrap
  /-- ASSEMBLY_COMPLETION (R117). -/
  | assemblyCompletion
  /-- PULSE: a rising edge on a pulse input, or two in one keying step (R42, R44). -/
  | pulse (i : PulseEdges)
  /-- MISSING_SECOND: a pulse timer's expiry (R45). -/
  | missingSecond (x : Link)
  /-- LINE_FILTER_CHANGE: a filtered pin level changes (R178). -/
  | lineFilterChange (n : LineId)
  /-- STROBE_END: a strobe timer ran out (R181). -/
  | strobeEnd (k : Strobe)
  /-- CHARACTER_IN_PROGRESS_COMPLETED: the last character of a dropped reply has left (R21, R23). -/
  | characterInProgressCompleted (l : Link)
deriving DecidableEq, Repr

end Sys2Proof
end

