-- ==== Sys2Proof/Decode.lean ====
section
/-! DEFINITION. The table of operations gives no row any bits ("fields" is empty in every row of spec/opcode_table.json),
so no word spells a command (log 39). What the part itself decodes, the bytes of frames and of requests, is in
Machine/Frames.lean and Machine/Operands.lean. -/

namespace Sys2Proof

/-- The command a word spells by the table's bits: none, since no row gives bits. -/
def decodeTableWord (_nbits _w : Nat) : Option Instr := none

end Sys2Proof
end

