-- ==== Sys2Proof/Config.lean ====
section
/-! DEFINITION. The fixed numbers of the part that the spec states, and the one value it leaves open. -/

namespace Sys2Proof.Config

/-- The last second of the span: U runs from 0 to 3,155,759,999 (R44, R58). -/
def spanLast : Int := 3155759999

/-- The last UTC minute of the span (R131). -/
def lastMinute : Nat := 52595999

/-- The last UTC day of the span (R78). -/
def lastDay : Nat := 36524

/-- Where every counter of the status unit stops (R188). -/
def counterMax : Nat := 65535

/-- Where holdover seconds stop (R56). -/
def holdoverMax : Nat := 4294967295

/-- A free value (DESIGN CHOICE, log 13): the pending-balance byte of a status record captured while no balance is
pending. 12.8 gives the byte and a presence bit and no code for absence, and R194 gives none. -/
opaque absentPendingBalance : Nat → Byte

end Sys2Proof.Config
end

