-- ==== Sys2Proof/Machine/Types.lean ====
section
/-! DEFINITION. The pieces of state of the twelve blocks, as plain data. Each structure names the table of the spec that
lists its items. -/

namespace Sys2Proof.Machine

/-! ### Like things by name -/

/-- One thing per link. -/
structure PerLink (α : Type) where
  a : α
  b : α
deriving DecidableEq, Repr

/-- The thing of a link. -/
def PerLink.get {α : Type} (p : PerLink α) : Link → α
  | .a => p.a
  | .b => p.b

/-- Replace the thing of a link. -/
def PerLink.set {α : Type} (p : PerLink α) (l : Link) (x : α) : PerLink α :=
  match l with
  | .a => { p with a := x }
  | .b => { p with b := x }

/-- One thing per station line. -/
structure PerLine (α : Type) where
  l0 : α
  l1 : α
  l2 : α
  l3 : α
  l4 : α
  l5 : α
  l6 : α
  l7 : α
deriving DecidableEq, Repr

/-- The thing of a line. -/
def PerLine.get {α : Type} (p : PerLine α) : LineId → α
  | .l0 => p.l0
  | .l1 => p.l1
  | .l2 => p.l2
  | .l3 => p.l3
  | .l4 => p.l4
  | .l5 => p.l5
  | .l6 => p.l6
  | .l7 => p.l7

/-- Replace the thing of a line. -/
def PerLine.set {α : Type} (p : PerLine α) (n : LineId) (x : α) : PerLine α :=
  match n with
  | .l0 => { p with l0 := x }
  | .l1 => { p with l1 := x }
  | .l2 => { p with l2 := x }
  | .l3 => { p with l3 := x }
  | .l4 => { p with l4 := x }
  | .l5 => { p with l5 := x }
  | .l6 => { p with l6 := x }
  | .l7 => { p with l7 := x }

/-- One thing per line, each from its number. -/
def PerLine.build {α : Type} (f : LineId → α) : PerLine α :=
  { l0 := f .l0, l1 := f .l1, l2 := f .l2, l3 := f .l3, l4 := f .l4, l5 := f .l5, l6 := f .l6, l7 := f .l7 }

/-- The lines, L0 first. -/
def allLines : List LineId := [.l0, .l1, .l2, .l3, .l4, .l5, .l6, .l7]

/-- One thing per keying profile. -/
structure PerProfile (α : Type) where
  p0 : α
  p1 : α
  p2 : α
  p3 : α
deriving DecidableEq, Repr

/-- The thing of a profile. -/
def PerProfile.get {α : Type} (p : PerProfile α) (i : Fin 4) : α :=
  match i with
  | 0 => p.p0
  | 1 => p.p1
  | 2 => p.p2
  | 3 => p.p3

/-- Replace the thing of a profile. -/
def PerProfile.set {α : Type} (p : PerProfile α) (i : Fin 4) (x : α) : PerProfile α :=
  match i with
  | 0 => { p with p0 := x }
  | 1 => { p with p1 := x }
  | 2 => { p with p2 := x }
  | 3 => { p with p3 := x }

/-! ### Reference receivers (01) -/

/-- The kinds of error of the pending error set (R13). -/
inductive ErrKind where
  | headerCorrected | headerBad | checksumBad | framing | parity | truncated | lengthMismatch | queueOverrun
  | epochOverwritten | epochRange | unknownKind | droppedQuarantined
deriving DecidableEq, Repr

/-- The parity setting of a link (R20). -/
inductive Parity where
  | none | even | odd
deriving DecidableEq, Repr

/-- The six settings of a link (R20). -/
structure LinkSettings where
  node : Nat
  parity : Parity
  stopOnError : Bool
  returnLimit : Nat
  lead : Nat
  tail : Nat
deriving DecidableEq, Repr

/-- The header of a frame: address, kind, length (section 1.2). -/
structure Header where
  address : Byte
  kind : Byte
  length : Byte
deriving DecidableEq, Repr

/-- The receive state with its frame in progress (R2, R4, R8). In HEADER: the bytes stored so far. In PAYLOAD: the
corrected header, the check byte and the payload and CRC bytes so far; the frame is complete when length + 2 stand. -/
inductive RxState where
  | hunt
  | header (got : List Byte)
  | payload (h : Header) (check : Byte) (got : List Byte)
  | muted
deriving DecidableEq, Repr

/-- The quality of an epoch frame (R10). -/
inductive Quality where
  | locked | degraded | unlocked
deriving DecidableEq, Repr

/-- The leap hint of an epoch frame (R10, R92). -/
inductive LeapHint where
  | none | insertToday | deleteToday
deriving DecidableEq, Repr

/-- An epoch frame in the latch (R10, R11). -/
structure EpochFrame where
  count : Nat
  quality : Quality
  hint : LeapHint
deriving DecidableEq, Repr

/-- A request frame in a queue (R12): its address and its payload as received. -/
structure ReqFrame where
  address : Byte
  payload : List Byte
deriving DecidableEq, Repr

/-- The reasons of a refusal (R29). -/
inductive Reason where
  | permission | state | range | listFull | stackFull | stackEmpty | notFound | late | pending
  | validation (n : Nat)
  | unknownRequest | length
deriving DecidableEq, Repr

/-- The outcome a reply reports (R28). -/
inductive ReplyOutcome where
  | done | doneClamped | more
  | refused (r : Reason)
deriving DecidableEq, Repr

/-- A reply as the executor builds it (R28): everything but the error set, which the send point fills in. `address` is the
node address in force when the reply is taken (R19); `ofStatus` says that it answers a READ_STATUS (R17). -/
structure Reply where
  address : Nat
  tag : Byte
  outcome : ReplyOutcome
  data : List Byte
  ofStatus : Bool
deriving DecidableEq, Repr

/-- A character on a wire, bit by bit in the order of sending: the start bit, eight data bits, a parity bit under EVEN and ODD,
the stop bit (R1). -/
abbrev WireChar := List Bool

/-- The return transmitter (R18). `sending` holds the bytes of the frame being sent, and the characters known to have begun,
formed under the parity in force when each began (R3); the others take the parity in force when they begin. `finishing` is
SENDING after its reply was dropped, until the character in progress has left (R21, R23; log 36). -/
inductive Tx where
  | idle
  | lead (r : Reply)
  | sending (frame : List Byte) (begun : List WireChar)
  | finishing (c : WireChar)
  | tail
deriving DecidableEq, Repr

/-- The state of one reference receiver (the table at the head of 01). `oldParity` is the parity of the inbound character whose
start bit began before the last change of the parity setting, while that character is under way (R20; log 9). `skipping`: the
inbound character under way began before the link was enabled, so that it is not taken (R22; log 9). -/
structure LinkState where
  enabled : Bool
  rx : RxState
  latch : Option EpochFrame
  queue : List ReqFrame
  errors : BitVec 16
  quarantined : Bool
  settings : LinkSettings
  tx : Tx
  oldParity : Option Parity
  skipping : Bool
deriving DecidableEq, Repr

/-! ### Request executor (02) -/

/-- The classes of write requests (R32). -/
inductive PermClass where
  | link | timebase | rules | maps | profiles | overrides | carrier | code | spare | lines | restart | permissions
deriving DecidableEq, Repr

/-- The executor (R24). -/
structure Executor where
  lastServed : Link
  permissions : BitVec 16
  privileged : Link
  restartPending : Option Link
deriving DecidableEq, Repr

/-! ### Timebase (03) -/

/-- The state of a source monitor (R43). -/
inductive MonitorState where
  | down | hunting | qualified | active
deriving DecidableEq, Repr

/-- A source monitor (R43). `last` holds last S and last offset, present or absent together. `missed` counts the missing
seconds judged since the last pulse, and `missDue` marks an expiry of the present keying step (log 29). `waiting`: a pulse came
after the boundary of its keying step was formed and belongs to the next step (log 41). -/
structure Monitor where
  state : MonitorState
  good : Nat
  last : Option (Nat × Int)
  timer : Option Nat
  missed : Nat
  missDue : Bool
  waiting : Bool
deriving DecidableEq, Repr

/-- The timebase settings (R59). -/
structure TimebaseSettings where
  window : Nat
  qualify : Nat
  preferred : Link
  revertive : Bool
  acceptDegraded : Bool
  warn : Nat
  limit : Nat
deriving DecidableEq, Repr

/-- How the second boundary of a keying step came: not at all so far, at a pulse, or with the step's wrap (R41, R42). -/
inductive StepBoundary where
  | none | atPulse | atWrap
deriving DecidableEq, Repr

/-- The timebase (the table of 3.1). `wrapDue`: the wrap of the present keying step is not yet taken (log 5). `formed`: how the
boundary of the present keying step came, if it has come (log 41). -/
structure Timebase where
  m : Nat
  count : Option Nat
  monitors : PerLink Monitor
  active : Option Link
  holdover : Nat
  settings : TimebaseSettings
  wrapDue : Bool
  formed : StepBoundary
deriving DecidableEq, Repr

/-! ### Time scale unit (04) -/

/-- The adoption mark of a boundary (R41). -/
inductive Mark where
  | none | first | step
deriving DecidableEq, Repr

/-- The label of a second (R63). The minute number is `u / 60`. -/
structure Label where
  day : Nat
  hour : Nat
  minute : Nat
  second : Nat
  inserted : Bool
  u : Nat
  count : Nat
  mark : Mark
deriving DecidableEq, Repr

/-- The UTC minute to which the second belongs (R63). -/
def Label.minuteNumber (l : Label) : Nat := l.u / 60

/-- The time scale unit (the table of 4.1). -/
structure TimeScale where
  balance : Int
  pendingBalance : Option Int
  label : Option Label
deriving DecidableEq, Repr

/-! ### Rule lists (05) -/

/-- A leap entry (R78): `insert` is INSERT, otherwise DELETE. -/
structure LeapEntry where
  day : Nat
  insert : Bool
deriving DecidableEq, Repr

/-- A transition entry (R78). -/
structure Transition where
  minute : Nat
  offset : Int
  summer : Bool
deriving DecidableEq, Repr

/-- The rule lists (R78). -/
structure RuleLists where
  leaps : List LeapEntry
  transitions : List Transition
  offset : Int
  summer : Bool
  leapWindow : Nat
  changeWindow : Nat
  lateRef : Option Nat
  lastMismatch : Option Nat
deriving DecidableEq, Repr

/-! ### Code assembler (06, 07) -/

/-- What a slot carries (00 section 4). -/
inductive Symbol where
  | mark | zero | one | nil
deriving DecidableEq, Repr

/-- The seven kinds of map entry (R96). -/
inductive MapKind where
  | mark | nil | const0 | const1 | field | flag | parity
deriving DecidableEq, Repr

/-- A map entry as stored (R96, 12.8): the kind, the membership count 0 to 2, and bytes 1 to 3 as written. -/
structure MapEntry where
  kind : MapKind
  members : Nat
  code : Byte
  weight : Byte
  groups : Byte
deriving DecidableEq, Repr

/-- The five flags of the code (R98). -/
inductive FlagName where
  | leapAnn | leapNeg | chgAnn | summer | holdover
deriving DecidableEq, Repr

/-- Values of the five flags (R116, R119). -/
structure CodeFlags where
  leapAnn : Bool
  leapNeg : Bool
  chgAnn : Bool
  summer : Bool
  holdover : Bool
deriving DecidableEq, Repr

/-- The field values of a word (R77, R119): the civil time of the described minute, the offset O and the spare byte. -/
structure FieldValues where
  minute : Nat
  hour : Nat
  mday : Nat
  wday : Nat
  month : Nat
  year : Nat
  offset : Int
  spare : Byte
deriving DecidableEq, Repr

/-- The content of a view (R116, R140). -/
inductive Content where
  | normal | silence | test
deriving DecidableEq, Repr

/-- The kinds of word (R119). -/
inductive WordKind where
  | coded | test | silent | suspended
deriving DecidableEq, Repr

/-- A word record (R119). The described minute is `transmitted + 1`. -/
structure CodeWord where
  kind : WordKind
  transmitted : Nat
  length : Nat
  symbols : List Symbol
  fields : FieldValues
  flags : CodeFlags
  profile : Fin 4
  broken : Bool
deriving DecidableEq, Repr

/-- The described minute of a word (R119). -/
def CodeWord.described (w : CodeWord) : Nat := w.transmitted + 1

/-- The current word with the last slot begun under it (R113). -/
structure CurrentWord where
  word : CodeWord
  lastSlot : Nat
deriving DecidableEq, Repr

/-- An assembly in progress (R113): its start label and its view (R116). `due` holds the transition entries found due at
the start boundary (R88, R115). -/
structure View where
  start : Label
  map : List MapEntry
  transmitted : Nat
  length : Nat
  due : List Transition
  offset : Int
  summer : Bool
  fields : FieldValues
  content : Content
  profile : Fin 4
  flags : CodeFlags
  limited : Bool
  test : List Symbol
deriving DecidableEq, Repr

/-- The code assembler (R95, R113, and the profile of the latest view of R149). `active1`: bank 1 is active. -/
structure Assembler where
  bank0 : List MapEntry
  bank1 : List MapEntry
  active1 : Bool
  commitPending : Bool
  test : List Symbol
  spare : Byte
  selection : Fin 4
  slotSetting : Nat
  slotInForce : Nat
  assembly : Option View
  pendingWord : Option CodeWord
  current : Option CurrentWord
  lastViewProfile : Option (Fin 4)
deriving DecidableEq, Repr

/-! ### Override stack (08) -/

/-- The aspect of an override entry with its value (R133). -/
inductive OverrideValue where
  /-- CONTENT: SILENCE, or TEST when `test`. -/
  | content (test : Bool)
  | profile (p : Fin 4)
  | flag (f : FlagName) (v : Bool)
deriving DecidableEq, Repr

/-- An override entry (R133). -/
structure OverrideEntry where
  value : OverrideValue
  remaining : Option Nat
  link : Link
  mark : Bool
deriving DecidableEq, Repr

/-! ### Keying generator (09) -/

/-- A dip shape (R146). -/
structure DipShape where
  ldip : Nat
  low : Nat
  rd : Nat
  ru : Nat
deriving DecidableEq, Repr

/-- A keying profile (R146). -/
structure Profile where
  full : Nat
  zero : DipShape
  one : DipShape
  mark : DipShape
deriving DecidableEq, Repr

/-- The slot shape latch (R145): the shape is absent for NIL. -/
structure SlotLatch where
  symbol : Symbol
  profile : Fin 4
  full : Nat
  shape : Option DipShape
deriving DecidableEq, Repr

/-- A sample word (R153). -/
structure Sample where
  amplitude : Nat
  slotStart : Bool
  minuteStart : Bool
  dip : Bool
deriving DecidableEq, Repr

/-- The keying generator (R145). `keyOut` is the sample word of the present keying step, and `stepAmp` the amplitude that
carrier control gave for that step, absent in STEADY (R155; log 6). -/
structure Keying where
  profiles : PerProfile Profile
  latch : SlotLatch
  j : Nat
  holdSuppress : Bool
  keyOut : Sample
  stepAmp : Option Nat
deriving DecidableEq, Repr

/-! ### Carrier control (10) -/

/-- The carrier state (R163). -/
inductive CarrierState where
  | off | rising | steady | falling
deriving DecidableEq, Repr

/-- The code state (R163, R168). -/
inductive CodeState where
  | off | armed | running | ending
deriving DecidableEq, Repr

/-- Carrier control (R163). `rampEnd`: the ramp ends at the end of the present step (log 5). `justSteady`: a rise has ended in
the present step, so that a boundary of that step comes before STEADY (R170; log 5). -/
structure Carrier where
  state : CarrierState
  k : Nat
  rampSetting : Nat
  rc : Nat
  fr : Nat
  code : CodeState
  offAfter : Bool
  haltLatch : Bool
  rampEnd : Bool
  justSteady : Bool
deriving DecidableEq, Repr

/-! ### Station line unit (11) -/

/-- The pull of a line (R175). -/
inductive Pull where
  | none | up | down
deriving DecidableEq, Repr

/-- The edge select of a line (R179). -/
inductive EdgeSelect where
  | none | rising | falling | both
deriving DecidableEq, Repr

/-- The functions of the lines (R176). -/
inductive LineFunction where
  | txHold | halt | minuteStrobe | slotStrobe | secondStrobe | holdoverAlarm | keyEcho
  | replyDrive (l : Link)
  | pulseBAlt
deriving DecidableEq, Repr

/-- One station line (R175). `enables` has bit k set for the function of rank k. `raw` is the raw level last sampled while
the line was an input, or found at the take that made it one (log 47). -/
structure LineState where
  enables : Byte
  dirOut : Bool
  level : Bool
  invert : Bool
  pull : Pull
  edge : EdgeSelect
  filter : Nat
  filtered : Bool
  run : Nat
  raw : Bool
  edgeFlag : Bool
  filterDue : Bool
deriving DecidableEq, Repr

/-- One strobe timer each (R181): stopped, or the keying steps remaining; `some 0` has run out (log 5). -/
structure Strobes where
  minute : Option Nat
  slot : Option Nat
  second : Option Nat
deriving DecidableEq, Repr

/-- The timer of a strobe. -/
def Strobes.get (t : Strobes) : Strobe → Option Nat
  | .minute => t.minute
  | .slot => t.slot
  | .second => t.second

/-- Replace the timer of a strobe. -/
def Strobes.set (t : Strobes) (k : Strobe) (v : Option Nat) : Strobes :=
  match k with
  | .minute => { t with minute := v }
  | .slot => { t with slot := v }
  | .second => { t with second := v }

/-- The station line unit (R175). `l6Pulse`: a rising edge on the routed L6 waits for the timebase (log 27). -/
structure LineUnit where
  lines : PerLine LineState
  strobeWidth : Nat
  strobeSlot : Nat
  strobes : Strobes
  strap : Link
  l6Pulse : Bool
deriving DecidableEq, Repr

/-! ### Status unit (12) -/

/-- The counters (R188) and the event flags (R190). -/
structure StatusUnit where
  brokenMinutes : Nat
  timeSteps : Nat
  minutesCoded : Nat
  strayPulses : PerLink Nat
  badSeconds : PerLink Nat
  framesDiscarded : PerLink Nat
  timeStep : Bool
  sourceDisagree : Bool
  leapMismatch : Bool
  haltSeen : Bool
  holdoverLimited : Bool
deriving DecidableEq, Repr

end Sys2Proof.Machine
end

