-- ==== Sys2Proof/Machine/Bytes.lean ====
section
/-! DEFINITION. Numbers in bytes, as R194 lays them out: most significant byte first, signed fields in two's complement. -/

namespace Sys2Proof.Machine

/-- A number in one byte. -/
def byteOf (n : Nat) : Byte := BitVec.ofNat 8 n

/-- A number in two bytes, most significant first (R194). -/
def be2 (n : Nat) : List Byte := [byteOf (n / 256), byteOf n]

/-- A number in four bytes, most significant first (R194). -/
def be4 (n : Nat) : List Byte := be2 (n / 65536) ++ be2 n

/-- A number in five bytes, most significant first (R194). -/
def be5 (n : Nat) : List Byte := byteOf (n / 4294967296) :: be4 n

/-- The number that bytes hold, most significant first (R194). -/
def ofBytes (bs : List Byte) : Nat := bs.foldl (fun acc b => acc * 256 + b.toNat) 0

/-- A signed number in one byte (R194). -/
def signedByte (i : Int) : Byte := BitVec.ofInt 8 i

/-- A signed number in two bytes (R194). -/
def signedBe2 (i : Int) : List Byte := be2 (i % 65536).toNat

/-- The signed number of a byte (R194). -/
def signedOf (b : Byte) : Int := b.toInt

/-- The number whose binary digits are the list, least significant first. -/
def ofBits : List Bool → Nat
  | [] => 0
  | b :: bs => b.toNat + 2 * ofBits bs

/-- A byte from its bits, bit 0 first; absent bits are 0. -/
def bitsByte (bs : List Bool) : Byte := byteOf (ofBits bs)

/-- The bits of a byte, least significant first. -/
def bitsOf (b : Byte) : List Bool := (List.range 8).map b.getLsbD

/-- True when an odd number of the bits are ones. -/
def oddOnes (bs : List Bool) : Bool := bs.foldl xor false

/-- Bit i of a class set or an error set (12.6). -/
def hasBit (v : BitVec 16) (i : Nat) : Bool := v.getLsbD i

/-- The set with member i alone (12.6). -/
def onlyBit (i : Nat) : BitVec 16 := BitVec.ofNat 16 (2 ^ i)

end Sys2Proof.Machine
end

