-- ==== Sys2Proof/Machine/Frames.lean ====
section
/-! DEFINITION. Characters, headers, check byte and CRC (R1, R5, R6, R9, R19). -/

namespace Sys2Proof.Machine

/-- The delimiter of a frame (section 1.2). -/
def delimiter : Byte := 0xC3

/-- The code of kind EPOCH (12.6). -/
def kindEpoch : Byte := 0x01
/-- The code of kind REQUEST (12.6). -/
def kindRequest : Byte := 0x02
/-- The code of kind FILLER (12.6). -/
def kindFiller : Byte := 0x03
/-- The code of kind REPLY (12.6). -/
def kindReply : Byte := 0x04

/-- What a received character is (R1). -/
inductive CharJudgement where
  | byte (b : Byte)
  | framing
  | parity
deriving DecidableEq, Repr

/-- R1: a low stop bit is a FRAMING fault, whatever the parity; otherwise parity EVEN faults on an odd number of ones in
data and parity bit together, ODD on an even number, and NONE never. -/
def judgeChar (p : Parity) (c : RxChar) : CharJudgement :=
  let odd := oddOnes (bitsOf c.data ++ [c.parityBit])
  if !c.stopBit then .framing
  else match p with
    | .none => .byte c.data
    | .even => if odd then .parity else .byte c.data
    | .odd => if odd then .byte c.data else .parity

/-- The character that carries a byte under a parity setting (R1): the start bit, the data bits least significant first, the bit
that makes the ones of data and parity even or odd, and the stop bit. -/
def charBits (p : Parity) (b : Byte) : WireChar :=
  false :: bitsOf b
    ++ (match p with
      | .none => []
      | .even => [oddOnes (bitsOf b)]
      | .odd => [!oddOnes (bitsOf b)])
    ++ [true]

/-- The codeword positions of header bits 0 to 23 (R5). -/
def codePositions : List Nat :=
  [3, 5, 6, 7, 9, 10, 11, 12, 13, 14, 15, 17, 18, 19, 20, 21, 22, 23, 24, 25, 26, 27, 28, 29]

/-- Header bits 0 to 23: address, kind, length, each least significant bit first (R5). -/
def headerBits (h : Header) : List Bool := bitsOf h.address ++ bitsOf h.kind ++ bitsOf h.length

/-- c0 to c4 of a header as a number: bit i is the exclusive-or of the data bits whose position has bit i set, which is
bit i of the exclusive-or of the positions of the data bits that are one (R5, worked in 1.11). -/
def checkBits (h : Header) : Nat :=
  (codePositions.zip (headerBits h)).foldl (fun acc pb => if pb.2 then acc ^^^ pb.1 else acc) 0

/-- The check byte of a header: c0 to c4, and c5 the exclusive-or of all 24 data bits and c0 to c4 (R5). -/
def checkByte (h : Header) : Byte :=
  let c := checkBits h
  let c5 := oddOnes (headerBits h ++ (bitsOf (byteOf c)).take 5)
  byteOf (c + 32 * c5.toNat)

/-- The judgement of a received header (R6). -/
inductive HeaderJudgement where
  | clean
  | corrected (h : Header)
  | bad
deriving DecidableEq, Repr

/-- Invert header bit i (R6). -/
def flipHeaderBit (h : Header) (i : Nat) : Header :=
  if i < 8 then { h with address := h.address ^^^ byteOf (2 ^ i) }
  else if i < 16 then { h with kind := h.kind ^^^ byteOf (2 ^ (i - 8)) }
  else { h with length := h.length ^^^ byteOf (2 ^ (i - 16)) }

/-- R6: syndrome and overall parity of a header and its check byte. Bits 6 and 7 of the check byte are ignored. -/
def judgeHeader (h : Header) (check : Byte) : HeaderJudgement :=
  let received := (bitsOf check).take 6
  let syndrome := (check.toNat % 32) ^^^ checkBits h
  if oddOnes (headerBits h ++ received) then
    if syndrome ∈ [0, 1, 2, 4, 8, 16] then .corrected h
    else match codePositions.idxOf? syndrome with
      | some i => .corrected (flipHeaderBit h i)
      | none => .bad
  else if syndrome = 0 then .clean else .bad

/-- One bit into the CRC register (R9). -/
def crcBit (r : BitVec 16) (d : Bool) : BitVec 16 :=
  if r.msb ^^ d then (r <<< 1) ^^^ 0x1021 else r <<< 1

/-- One byte into the CRC register, most significant bit first (R9). -/
def crcByte (r : BitVec 16) (b : Byte) : BitVec 16 := (bitsOf b).reverse.foldl crcBit r

/-- The CRC of a run of bytes (R9). -/
def crc16 (bs : List Byte) : BitVec 16 := bs.foldl crcByte 0xFFFF

/-- The two CRC bytes over a header and a payload, most significant first (R9). -/
def crcBytes (h : Header) (payload : List Byte) : List Byte :=
  be2 (crc16 ([h.address, h.kind, h.length] ++ payload)).toNat

/-- A whole frame (section 1.2, R5, R9). -/
def encodeFrame (address kind : Byte) (payload : List Byte) : List Byte :=
  let h : Header := { address := address, kind := kind, length := byteOf payload.length }
  [delimiter, h.address, h.kind, h.length, checkByte h] ++ payload ++ crcBytes h payload

/-- The quality a code stands for; an unlisted code is latched as UNLOCKED (R10, 12.6). -/
def qualityOf (code : Byte) : Quality :=
  if code = 0x00 then .locked else if code = 0x01 then .degraded else .unlocked

/-- The leap hint a code stands for; an unlisted code is latched as NONE (R10, 12.6). -/
def hintOf (code : Byte) : LeapHint :=
  if code = 0x01 then .insertToday else if code = 0x02 then .deleteToday else .none

/-- The epoch frame that an EPOCH payload of seven bytes holds (R10, 12.6). -/
def epochOf (payload : List Byte) : EpochFrame :=
  { count := ofBytes (payload.take 5), quality := qualityOf (payload.getD 5 0), hint := hintOf (payload.getD 6 0) }

/-- The code of an outcome (12.6). -/
def ReplyOutcome.code : ReplyOutcome → Byte
  | .done => 0x00
  | .doneClamped => 0x01
  | .more => 0x02
  | .refused .permission => 0x10
  | .refused .state => 0x11
  | .refused .range => 0x12
  | .refused .listFull => 0x13
  | .refused .stackFull => 0x14
  | .refused .stackEmpty => 0x15
  | .refused .notFound => 0x16
  | .refused .late => 0x17
  | .refused .pending => 0x18
  | .refused (.validation _) => 0x19
  | .refused .unknownRequest => 0x1A
  | .refused .length => 0x1B

/-- The payload of a reply with its error set (R28, 12.6). -/
def replyPayload (r : Reply) (errors : BitVec 16) : List Byte :=
  [r.tag, r.outcome.code] ++ be2 errors.toNat ++ r.data

/-- The bytes of a reply frame (R19). -/
def replyFrame (r : Reply) (errors : BitVec 16) : List Byte :=
  encodeFrame (byteOf r.address) kindReply (replyPayload r errors)

end Sys2Proof.Machine
end

