-- ==== Sys2Proof/Machine/Factory.lean ====
section
/-! DEFINITION. The power-on contents of the tables and settings: the factory map (R112), the factory profiles (R146) and
the power-on value of each block's state (R23, R24, R39, R59, R61, R78, R95, R113, R133, R145, R163, R175, R193). -/

namespace Sys2Proof.Machine

/-! ### The factory map (R112) -/

/-! The table of R112 names the kind, the code, the weight and the groups of each entry; it gives no stored byte. The parts an
entry does not use hold 0, and of two groups the table's own one stands in the low nibble of byte 3 and F in the high one
(DESIGN CHOICE, log 43). -/

/-- An entry without membership: its code, weight and groups are unused and hold 0 (log 43). -/
def plainEntry (k : MapKind) : MapEntry := { kind := k, members := 0, code := 0, weight := 0, groups := 0 }

/-- A FIELD entry, member of the groups g and F (5), g in the low nibble (log 43). -/
def factoryField (code weight g : Nat) : MapEntry :=
  { kind := .field, members := 2, code := BitVec.ofNat 8 code, weight := BitVec.ofNat 8 weight,
    groups := BitVec.ofNat 8 (g + 16 * 5) }

/-- A FLAG entry, member of group F; its weight and second group are unused and hold 0 (log 43). -/
def factoryFlag (code : Nat) : MapEntry :=
  { kind := .flag, members := 1, code := BitVec.ofNat 8 code, weight := 0, groups := 5 }

/-- A SPARE entry, member of group F alone; its second group is unused and holds 0 (log 43). -/
def factorySpare (bit : Nat) : MapEntry :=
  { kind := .field, members := 1, code := 8, weight := BitVec.ofNat 8 bit, groups := 5 }

/-- A PARITY entry of a group; `odd` gives sense ODD. Its weight and groups are unused and hold 0 (log 43). -/
def factoryParity (g : Nat) (odd : Bool) : MapEntry :=
  { kind := .parity, members := 0, code := BitVec.ofNat 8 (g + 128 * odd.toNat), weight := 0, groups := 0 }

/-- The factory map: entries 0 to 59 and then the insert entry (R112). -/
def factoryMap : List MapEntry :=
  [plainEntry .mark]
    ++ [0, 2, 3, 4].map factoryFlag
    ++ [1, 2, 4, 8, 10, 20, 40].map (factoryField 0 · 0) ++ [factoryParity 0 false]
    ++ [1, 2, 4, 8, 10, 20].map (factoryField 1 · 1) ++ [factoryParity 1 false]
    ++ [1, 2, 4, 8, 10, 20].map (factoryField 2 · 2)
    ++ [1, 2, 4].map (factoryField 3 · 2) ++ [factoryParity 2 false]
    ++ [plainEntry .mark]
    ++ [1, 2, 4, 8, 10].map (factoryField 4 · 3)
    ++ [1, 2, 4, 8, 10, 20, 40, 80].map (factoryField 5 · 3) ++ [factoryParity 3 false]
    ++ [factoryField 7 1 4]
    ++ [1, 2, 4, 8, 16, 32].map (factoryField 6 · 4) ++ [factoryParity 4 false]
    ++ [factoryFlag 1]
    ++ [0, 1, 2, 3].map factorySpare
    ++ [factoryParity 5 true, plainEntry .nil, plainEntry .const0]

/-! ### The factory profiles (R146) -/

/-- A profile of the factory table with full level F and low level for all three shapes. -/
def factoryProfile (full low : Nat) : Profile :=
  { full := full
    zero := { ldip := 100, low := low, rd := 6, ru := 6 }
    one := { ldip := 200, low := low, rd := 6, ru := 6 }
    mark := { ldip := 500, low := low, rd := 6, ru := 6 } }

/-- The factory profile table: profile 1 keys at 70% (R146). -/
def factoryProfiles : PerProfile Profile :=
  { p0 := factoryProfile 1000 150, p1 := factoryProfile 700 105, p2 := factoryProfile 1000 150,
    p3 := factoryProfile 1000 150 }

/-- The test record after power-on: MARK, then NIL (R113). -/
def factoryTest : List Symbol := .mark :: List.replicate 59 .nil

/-! ### The blocks after power-on -/

/-- Link settings after power-on (R20). -/
def powerOnLinkSettings : LinkSettings :=
  { node := 1, parity := .none, stopOnError := false, returnLimit := 16, lead := 0, tail := 0 }

/-- A receiver after power-on (R23). -/
def powerOnLink : LinkState :=
  { enabled := true, rx := .hunt, latch := none, queue := [], errors := 0, quarantined := false,
    settings := powerOnLinkSettings, tx := .idle, oldParity := none, skipping := false }

/-- The executor after power-on, with the strap's result (R24, R31). -/
def powerOnExecutor (strap : Link) : Executor :=
  { lastServed := .b, permissions := 0, privileged := strap, restartPending := none }

/-- A monitor in HUNTING with nothing judged (R39, R43). -/
def freshMonitor (st : MonitorState) : Monitor :=
  { state := st, good := 0, last := none, timer := none, missed := 0, missDue := false, waiting := false }

/-- The timebase settings after power-on (R59). -/
def powerOnTimebaseSettings : TimebaseSettings :=
  { window := 2, qualify := 10, preferred := .a, revertive := true, acceptDegraded := false, warn := 600, limit := 240 }

/-- The timebase after power-on (R39). -/
def powerOnTimebase : Timebase :=
  { m := 0, count := none, monitors := { a := freshMonitor .hunting, b := freshMonitor .hunting }, active := none,
    holdover := 0, settings := powerOnTimebaseSettings, wrapDue := false, formed := .none }

/-- The time scale unit after power-on (4.1). -/
def powerOnTimeScale : TimeScale := { balance := 0, pendingBalance := none, label := none }

/-- The rule lists after power-on (R78). -/
def powerOnRules : RuleLists :=
  { leaps := [], transitions := [], offset := 0, summer := false, leapWindow := 60, changeWindow := 60,
    lateRef := none, lastMismatch := none }

/-- The code assembler after power-on (R95, R113). -/
def powerOnAssembler : Assembler :=
  { bank0 := factoryMap, bank1 := factoryMap, active1 := false, commitPending := false, test := factoryTest, spare := 0,
    selection := 0, slotSetting := 52, slotInForce := 52, assembly := none, pendingWord := none, current := none,
    lastViewProfile := none }

/-- The latch of NIL with profile 0's full level (R145). -/
def nilLatch (profiles : PerProfile Profile) : SlotLatch :=
  { symbol := .nil, profile := 0, full := (profiles.get 0).full, shape := none }

/-- The keying generator after power-on (R145). The sample word before the first keying step is zeros (DESIGN CHOICE,
log 12). -/
def powerOnKeying : Keying :=
  { profiles := factoryProfiles, latch := nilLatch factoryProfiles, j := 0, holdSuppress := false,
    keyOut := { amplitude := 0, slotStart := false, minuteStart := false, dip := false }, stepAmp := some 0 }

/-- Carrier control after power-on (R163). -/
def powerOnCarrier : Carrier :=
  { state := .off, k := 0, rampSetting := 2000, rc := 2000, fr := (factoryProfiles.get 0).full, code := .off,
    offAfter := false, haltLatch := false, rampEnd := false, justSteady := false }

/-- A line after power-on, its pin at `level` at the end of the reset (R175). -/
def powerOnLine (level : Bool) : LineState :=
  { enables := 0, dirOut := false, level := false, invert := false, pull := .none, edge := .none, filter := 0,
    filtered := level, run := 0, raw := level, edgeFlag := false, filterDue := false }

/-- The bit of a line in a set of eight. -/
def LineId.index : LineId → Nat
  | .l0 => 0
  | .l1 => 1
  | .l2 => 2
  | .l3 => 3
  | .l4 => 4
  | .l5 => 5
  | .l6 => 6
  | .l7 => 7

/-- The strap result: low on L7 makes link A privileged, high link B (R31, R185). -/
def strapOf (pins : PinIn) : Link := if pins.level.getLsbD 7 then .b else .a

/-- The station line unit after power-on (R175). After the reset every line is an input with pull NONE, so a pin reads the
level it is driven to or floats to. -/
def powerOnLines (pins : PinIn) : LineUnit :=
  { lines := PerLine.build (fun n => powerOnLine (pins.level.getLsbD (LineId.index n)))
    strobeWidth := 100, strobeSlot := 0, strobes := { minute := none, slot := none, second := none },
    strap := strapOf pins, l6Pulse := false }

/-- The status unit with nothing counted and no event (R193). -/
def clearedStatus : StatusUnit :=
  { brokenMinutes := 0, timeSteps := 0, minutesCoded := 0, strayPulses := { a := 0, b := 0 },
    badSeconds := { a := 0, b := 0 }, framesDiscarded := { a := 0, b := 0 }, timeStep := false, sourceDisagree := false,
    leapMismatch := false, haltSeen := false, holdoverLimited := false }

end Sys2Proof.Machine
end

