-- ==== Sys2Proof/Machine/State.lean ====
section
/-! DEFINITION. The state of the K61, the reasons to stop (none arises) and the state after power-on reset. -/

namespace Sys2Proof.Machine

/-- The whole state: the twelve blocks of 00 section 2, the model's counter of free values (log 13) and the queue of the
commands that wait (log 2). -/
structure State where
  links : PerLink LinkState
  executor : Executor
  timebase : Timebase
  timeScale : TimeScale
  rules : RuleLists
  assembler : Assembler
  stack : List OverrideEntry
  keying : Keying
  carrier : Carrier
  lineUnit : LineUnit
  status : StatusUnit
  freeDraws : Nat
  pending : List Instr
deriving DecidableEq, Repr

/-- The reasons of a fault: the spec names nothing that stops the part, so there are none. -/
inductive Fault where
deriving DecidableEq, Repr

/-- The reasons of a refusal by the MODEL (a request REFUSED by the part is a reply, not this). -/
inductive Refusal where
  /-- Raised by the dispatch alone, for a row that has no meaning yet; safe. No arm of this model uses it. -/
  | notModelled (mnemonic : String)
deriving DecidableEq, Repr

/-- What a meaning answers. -/
abbrev Out := Host.Outcome State Fault Refusal

/-- Replace the links. -/
def State.withLinks (s : State) (x : PerLink LinkState) : State := { s with links := x }
/-- Replace the executor's state. -/
def State.withExecutor (s : State) (x : Executor) : State := { s with executor := x }
/-- Replace the timebase. -/
def State.withTimebase (s : State) (x : Timebase) : State := { s with timebase := x }
/-- Replace the time scale unit. -/
def State.withTimeScale (s : State) (x : TimeScale) : State := { s with timeScale := x }
/-- Replace the rule lists. -/
def State.withRules (s : State) (x : RuleLists) : State := { s with rules := x }
/-- Replace the code assembler. -/
def State.withAssembler (s : State) (x : Assembler) : State := { s with assembler := x }
/-- Replace the override stack. -/
def State.withStack (s : State) (x : List OverrideEntry) : State := { s with stack := x }
/-- Replace the keying generator. -/
def State.withKeying (s : State) (x : Keying) : State := { s with keying := x }
/-- Replace carrier control. -/
def State.withCarrier (s : State) (x : Carrier) : State := { s with carrier := x }
/-- Replace the station line unit. -/
def State.withLineUnit (s : State) (x : LineUnit) : State := { s with lineUnit := x }
/-- Replace the status unit. -/
def State.withStatus (s : State) (x : StatusUnit) : State := { s with status := x }
/-- Replace the counter of free values. -/
def State.withFreeDraws (s : State) (x : Nat) : State := { s with freeDraws := x }
/-- Replace the queue of commands. -/
def State.withPending (s : State) (x : List Instr) : State := { s with pending := x }

/-- The state of a link. -/
def State.link (s : State) (l : Link) : LinkState := s.links.get l
/-- Replace the state of a link. -/
def State.setLink (s : State) (l : Link) (x : LinkState) : State := s.withLinks (s.links.set l x)
/-- The monitor of a source. -/
def State.monitor (s : State) (x : Link) : Monitor := s.timebase.monitors.get x
/-- Replace the monitor of a source. -/
def State.setMonitor (s : State) (x : Link) (mon : Monitor) : State :=
  s.withTimebase { s.timebase with monitors := s.timebase.monitors.set x mon }
/-- A station line. -/
def State.line (s : State) (n : LineId) : LineState := s.lineUnit.lines.get n
/-- Replace a station line. -/
def State.setLine (s : State) (n : LineId) (x : LineState) : State :=
  s.withLineUnit { s.lineUnit with lines := s.lineUnit.lines.set n x }

/-- The state after a power-on reset that ends with these levels on the pins, and with nothing in the queue of commands. -/
def State.powerOn (pins : PinIn) : State :=
  { links := { a := powerOnLink, b := powerOnLink }
    executor := powerOnExecutor (strapOf pins)
    timebase := powerOnTimebase
    timeScale := powerOnTimeScale
    rules := powerOnRules
    assembler := powerOnAssembler
    stack := []
    keying := powerOnKeying
    carrier := powerOnCarrier
    lineUnit := powerOnLines pins
    status := clearedStatus
    freeDraws := 0
    pending := [] }

/-- The state after reset. The pins at the end of the reset are the environment's; here all are low, so link A is
privileged (DESIGN CHOICE, log 11). -/
def State.reset : State := State.powerOn { driven := 0, level := 0 }

end Sys2Proof.Machine
end

