-- ==== Sys2Proof/Machine/Ops.lean ====
section
/-! DEFINITION. The shared operations on the links, counters and errors: counting, recording an error, the two ends of the
return transmitter's work (taking a reply, the send point). -/

namespace Sys2Proof.Machine

/-! ### Counters (R188) -/

/-- Add 1 to a counter, which stops at 65,535 (R188). -/
def countUp (n : Nat) : Nat := min Config.counterMax (n + 1)

/-- Clamp a number to a range (R30). -/
def clamp (lo hi v : Nat) : Nat := max lo (min hi v)

/-! ### The pending error set (R13, R15) -/

/-- The bit of an error kind (12.6). -/
def ErrKind.bit : ErrKind → Nat
  | .headerCorrected => 0
  | .headerBad => 1
  | .checksumBad => 2
  | .framing => 3
  | .parity => 4
  | .truncated => 5
  | .lengthMismatch => 6
  | .queueOverrun => 7
  | .epochOverwritten => 8
  | .epochRange => 9
  | .unknownKind => 10
  | .droppedQuarantined => 11

/-- Whether recording the kind discards a frame: the entries "yes" of R13's last column. -/
def ErrKind.discards : ErrKind → Bool
  | .headerCorrected => false
  | .headerBad => true
  | .checksumBad => true
  | .framing => true
  | .parity => true
  | .truncated => true
  | .lengthMismatch => true
  | .queueOverrun => true
  | .epochOverwritten => false
  | .epochRange => false
  | .unknownKind => true
  | .droppedQuarantined => true

/-- Whether recording the kind quarantines a link with stop-on-error on (R15). -/
def ErrKind.quarantines : ErrKind → Bool
  | .headerCorrected => false
  | .headerBad => true
  | .checksumBad => true
  | .framing => true
  | .parity => true
  | .truncated => true
  | .lengthMismatch => false
  | .queueOverrun => false
  | .epochOverwritten => false
  | .epochRange => false
  | .unknownKind => false
  | .droppedQuarantined => false

/-- A link with an error kind recorded (R13, R15). -/
def LinkState.recordError (ls : LinkState) (k : ErrKind) : LinkState :=
  { ls with
    errors := ls.errors ||| onlyBit k.bit
    quarantined := ls.quarantined || (k.quarantines && ls.settings.stopOnError) }

/-- Record an error on a link: the set and the quarantine flag, and FRAMES_DISCARDED where a frame is discarded (R13,
R15, R188). -/
def recordError (l : Link) (k : ErrKind) (s : State) : State :=
  (s.setLink l ((s.link l).recordError k)).withStatus
    (if k.discards then
      { s.status with framesDiscarded := s.status.framesDiscarded.set l (countUp (s.status.framesDiscarded.get l)) }
    else s.status)

/-- Put the receiver of a link into a receive state. -/
def setRx (l : Link) (rx : RxState) (s : State) : State := s.setLink l { s.link l with rx := rx }

/-- Put the return transmitter of a link into a state. -/
def setTx (l : Link) (tx : Tx) (s : State) : State := s.setLink l { s.link l with tx := tx }

/-! ### The return transmitter (R14, R17, R18) -/

/-- Whether REPLY_DRIVE of a link is enabled on its line, L5 or L6, where it has rank 0 (R18, R176). -/
def replyDriveEnabled (l : Link) (s : State) : Bool :=
  match l with
  | .a => (s.line .l5).enables.getLsbD 0
  | .b => (s.line .l6).enables.getLsbD 0

/-- The characters that leave, or have left, the return wire of a link back to back (R3), each under the parity in force when its
start bit begins; those still to begin are formed under the setting as it stands. Outside SENDING there are none. -/
def LinkState.returnChars (ls : LinkState) : List WireChar :=
  match ls.tx with
  | .idle => []
  | .lead _ => []
  | .sending frame begun => begun ++ (frame.drop begun.length).map (charBits ls.settings.parity)
  | .finishing c => [c]
  | .tail => []

/-- The level of a link's return wire n bit times after the first start bit of what is being sent (R3): the characters follow
each other with no gap, and otherwise the wire is held high. -/
def LinkState.returnWire (ls : LinkState) (n : Nat) : Bool := ls.returnChars.flatten.getD n true

/-- SENDING from the send point on: the delimiter's start bit begins, so its character takes the parity in force (R3, R14). -/
def beginSending (p : Parity) (frame : List Byte) : Tx := .sending frame ((frame.take 1).map (charBits p))

/-- A transmitter of which n characters have begun, each under parity p unless it is known to have begun before (R3, R20). -/
def Tx.withBegun (p : Parity) (n : Nat) : Tx → Tx
  | .idle => .idle
  | .lead r => .lead r
  | .sending frame begun => .sending frame (begun ++ ((frame.take n).drop begun.length).map (charBits p))
  | .finishing c => .finishing c
  | .tail => .tail

/-- The send point of a reply (R14): the pending error set goes into the frame and is emptied, the transmitter is SENDING,
and a READ_STATUS reply lifts the quarantine (R17). -/
def sendPoint (l : Link) (r : Reply) (s : State) : State :=
  s.setLink l
    { s.link l with
      tx := beginSending (s.link l).settings.parity (replyFrame r (s.link l).errors)
      errors := 0
      quarantined := (s.link l).quarantined && !r.ofStatus }

/-- A reply taken by a transmitter in IDLE or TAIL (R18): LEAD first when the transmitter is IDLE, REPLY_DRIVE is enabled
and the lead time is not 0; otherwise SENDING with the send point at once. -/
def offerReply (l : Link) (r : Reply) (s : State) : State :=
  if (s.link l).tx = .idle ∧ replyDriveEnabled l s = true ∧ (s.link l).settings.lead ≠ 0 then setTx l (.lead r) s
  else sendPoint l r s

/-- The character in progress when n characters of a reply have begun (R21): the last of them, under the parity with which it
began. The first one begins at the send point. -/
def charInProgress (p : Parity) (n : Nat) (frame : List Byte) (begun : List WireChar) : WireChar :=
  (begun ++ (frame.drop begun.length).map (charBits p)).getD (max n begun.length - 1) []

/-- Drop what a return transmitter holds (R21, R23): SENDING finishes its character first, any other state becomes IDLE at
once and a reply in LEAD is lost without a send point. `n` characters of the reply have begun. -/
def Tx.dropped (p : Parity) (n : Nat) : Tx → Tx
  | .idle => .idle
  | .lead _ => .idle
  | .sending frame begun => .finishing (charInProgress p n frame begun)
  | .finishing c => .finishing c
  | .tail => .idle

/-- The transmitter of a link when its reply is dropped (R21, R23). -/
def LinkState.droppedTx (ls : LinkState) (wire : WireIn) : Tx := ls.tx.dropped ls.settings.parity wire.begun

/-! ### The parity of a character (R20), and whether it is taken (R22) -/

/-- The parity of the next inbound character that ends: the one in force when its start bit began (R20). -/
def LinkState.charParity (ls : LinkState) : Parity := ls.oldParity.getD ls.settings.parity

/-- The end of an inbound character on a link: the next one is under the parity in force (R20), and is taken (R22). -/
def endCharacter (l : Link) (s : State) : State := s.setLink l { s.link l with oldParity := none, skipping := false }

/-! ### The executor's queue end (R26) -/

/-- Remove the head request of a link and make the link the last one served (R26). -/
def popTaken (src : Link) (s : State) : State :=
  (s.setLink src { s.link src with queue := (s.link src).queue.drop 1 }).withExecutor
    { s.executor with lastServed := src }

/-! ### Profiles in force -/

/-- The profile in force (R149): that of the current word, else that of the view of the latest assembly started since the
last reset, else profile 0. -/
def profileInForce (s : State) : Fin 4 :=
  match s.assembler.current with
  | some cw => cw.word.profile
  | none => s.assembler.lastViewProfile.getD 0

/-- The full level of the profile in force. -/
def fullInForce (s : State) : Nat := (s.keying.profiles.get (profileInForce s)).full

/-- Mark the current word broken (R161); BROKEN_MINUTES counts the passage from clear to set. -/
def markBroken (s : State) : State :=
  match s.assembler.current with
  | none => s
  | some cw =>
    if cw.word.broken then s
    else
      (s.withAssembler
        { s.assembler with current := some { cw with word := { cw.word with broken := true } } }).withStatus
        { s.status with brokenMinutes := countUp s.status.brokenMinutes }

/-- The code keys words: RUNNING or ENDING (R168). -/
def CodeState.keys : CodeState → Bool
  | .off => false
  | .armed => false
  | .running => true
  | .ending => true

end Sys2Proof.Machine
end

