-- ==== Sys2Proof/Machine/Flags.lean ====
section
/-! DEFINITION. The conditions computed from state: time valid, holdover, warned and limited (03), and the event flag that
follows limited (R57, R190). -/

namespace Sys2Proof.Machine

/-- Time valid: the flywheel second count is present (3.1). -/
def timeValid (s : State) : Bool := s.timebase.count.isSome

/-- In holdover: no active source and time valid (3.1). -/
def inHoldover (s : State) : Bool := s.timebase.active.isNone && timeValid s

/-- Holdover warned (R57). -/
def warned (s : State) : Bool := inHoldover s && decide (s.timebase.settings.warn ≤ s.timebase.holdover)

/-- Holdover limited (R57): the limit is in minutes. -/
def limited (s : State) : Bool := inHoldover s && decide (60 * s.timebase.settings.limit ≤ s.timebase.holdover)

/-- Set HOLDOVER_LIMITED when limited has become true since `before` (R57, R190). -/
def noteLimited (before s : State) : State :=
  if !limited before && limited s then s.withStatus { s.status with holdoverLimited := true } else s

/-- Whether U lies in the span, 0 to 3,155,759,999 (R44, R58). -/
def inSpan (u : Int) : Bool := decide (0 ≤ u) && decide (u ≤ Config.spanLast)

end Sys2Proof.Machine
end

