-- ==== Sys2Proof/Machine/Calendar.lean ====
section
/-! DEFINITION. Day number to date and weekday, civil minutes and the field values (R71 to R77). -/

namespace Sys2Proof.Machine

/-- A civil date: the year, the month and the day of month. -/
structure CivilDate where
  year : Nat
  month : Nat
  mday : Nat
deriving DecidableEq, Repr

/-- Year and day of year of a civil day number from -1 to 36525, and whether the year is a leap year (R71). -/
def yearAndDay (d : Int) : Nat × Nat × Bool :=
  if d < 0 then (1999, 364, false)
  else
    let q := (d / 1461).toNat
    let r := (d % 1461).toNat
    if r < 366 then (2000 + 4 * q, r, true)
    else (2000 + 4 * q + (1 + (r - 366) / 365), (r - 366) % 365, false)

/-- Cumulative days before each month of a common year (R72). -/
def monthStartsCommon : List Nat := [0, 31, 59, 90, 120, 151, 181, 212, 243, 273, 304, 334]

/-- Cumulative days before each month of a leap year (R72). -/
def monthStartsLeap : List Nat := [0, 31, 60, 91, 121, 152, 182, 213, 244, 274, 305, 335]

/-- Month and day of month of a day of year: the last month whose cumulative count is at most the day (R72). -/
def monthAndDay (leap : Bool) (yday : Nat) : Nat × Nat :=
  let starts := (if leap then monthStartsLeap else monthStartsCommon).filter (· ≤ yday)
  (starts.length, yday - starts.getLastD 0 + 1)

/-- The date of a civil day number (R71, R72). -/
def dateOf (d : Int) : CivilDate :=
  let (year, yday, leap) := yearAndDay d
  let (month, mday) := monthAndDay leap yday
  { year := year, month := month, mday := mday }

/-- The weekday of a civil day number, 1 Monday to 7 Sunday (R73). -/
def weekdayOf (d : Int) : Nat := ((d + 5) % 7).toNat + 1

/-- The field values of a word with described minute t under offset O (R74, R75, R77). -/
def fieldValues (t : Nat) (offset : Int) (spare : Byte) : FieldValues :=
  let c : Int := (t : Int) + 15 * offset
  let day := c / 1440
  let mod := (c % 1440).toNat
  let date := dateOf day
  { minute := mod % 60, hour := mod / 60, mday := date.mday, wday := weekdayOf day, month := date.month,
    year := date.year % 100, offset := offset, spare := spare }

/-- Whether weight w is set in a value read as BCD: 1, 2, 4, 8 in the units digit, 10, 20, 40, 80 in the tens digit
(R77). -/
def bcdWeight (v w : Nat) : Bool :=
  if w < 10 then (v % 10) / w % 2 = 1 else (v / 10) / (w / 10) % 2 = 1

/-- Whether weight 2^k is set in a value read as binary (R77). -/
def binaryWeight (v w : Nat) : Bool := v / w % 2 = 1

/-- The valid weights of each field code (R97). -/
def validWeights (field : Nat) : List Nat :=
  match field with
  | 0 => [1, 2, 4, 8, 10, 20, 40]
  | 1 => [1, 2, 4, 8, 10, 20]
  | 2 => [1, 2, 4, 8, 10, 20]
  | 3 => [1, 2, 4]
  | 4 => [1, 2, 4, 8, 10]
  | 5 => [1, 2, 4, 8, 10, 20, 40, 80]
  | 6 => [1, 2, 4, 8, 16, 32]
  | 7 => [1]
  | 8 => [0, 1, 2, 3, 4, 5, 6, 7]
  | _ => []

/-- The bit a field and weight give (R77, R97). A pair that R97 does not list gives no ONE; no such pair stands in an active
bank (R110; log 25). -/
def fieldBit (fv : FieldValues) (field weight : Nat) : Bool :=
  decide (weight ∈ validWeights field) &&
  match field with
  | 0 => bcdWeight fv.minute weight
  | 1 => bcdWeight fv.hour weight
  | 2 => bcdWeight fv.mday weight
  | 3 => binaryWeight fv.wday weight
  | 4 => bcdWeight fv.month weight
  | 5 => bcdWeight fv.year weight
  | 6 => binaryWeight fv.offset.natAbs weight
  | 7 => decide (fv.offset < 0)
  | 8 => fv.spare.getLsbD weight
  | _ => false

end Sys2Proof.Machine
end

