-- ==== Sys2Proof/Machine/TimeScale.lean ====
section
/-! DEFINITION. The time scale unit: leap application, labels, changes of balance (R61 to R70). -/

namespace Sys2Proof.Machine

/-- What a leap entry adds to the balance (R64). -/
def LeapEntry.delta (e : LeapEntry) : Int := if e.insert then 1 else -1

/-- The leap minute of an entry, 23:59 UTC of its day (R78). -/
def LeapEntry.leapMinute (e : LeapEntry) : Nat := 1440 * e.day + 1439

/-- 00:00:00 of the day after the entry's, as a second number (R64). -/
def LeapEntry.midnight (e : LeapEntry) : Int := 86400 * ((e.day : Int) + 1)

/-- Whether an entry is due against count c with balance B (R64). -/
def LeapEntry.due (e : LeapEntry) (c balance : Int) : Bool :=
  decide (e.midnight + (if e.insert then 1 else -1) ≤ c - balance)

/-- Apply the due entries from the head of the list, each tested with the balance the one before it left (R64, R70). -/
def applyDue (c balance : Int) : List LeapEntry → Int × List LeapEntry
  | [] => (balance, [])
  | e :: rest => if e.due c balance then applyDue c (balance + e.delta) rest else (balance, e :: rest)

/-- Whether every partial sum of the list applied in order from a balance lies in -32 to +127 (R62, R81, R82). -/
def sumsInRange (balance : Int) : List LeapEntry → Bool
  | [] => true
  | e :: rest =>
    decide (-32 ≤ balance + e.delta) && decide (balance + e.delta ≤ 127) && sumsInRange (balance + e.delta) rest

/-- The balance from which the range tests of the leap list start: the pending one, else B (R62, R81). -/
def TimeScale.sumBase (t : TimeScale) : Int := t.pendingBalance.getD t.balance

/-- Day, hour, minute and second of a NORMAL second number (R65 step 6). -/
def splitLabel (u : Nat) (count : Nat) (mark : Mark) : Label :=
  let sec := u % 86400
  { day := u / 86400, hour := sec / 3600, minute := sec % 3600 / 60, second := sec % 60, inserted := false, u := u,
    count := count, mark := mark }

/-- The label of an inserted second of a day: 23:59:60, sharing the second number before it (R63, R66). -/
def insertedLabel (day u : Nat) (count : Nat) (mark : Mark) : Label :=
  { day := day, hour := 23, minute := 59, second := 60, inserted := true, u := u, count := count, mark := mark }

/-- The second number and the label that a uniform number U takes with a leap list, or none when the second number lies
outside the span (R65 steps 5 and 6, R58). -/
def labelOf (uniform : Int) (leaps : List LeapEntry) (count : Nat) (mark : Mark) : Option Label :=
  match leaps with
  | e :: _ =>
    if e.insert ∧ uniform = e.midnight then
      if inSpan (uniform - 1) then some (insertedLabel e.day (uniform - 1).toNat count mark) else none
    else if inSpan uniform then some (splitLabel uniform.toNat count mark) else none
  | [] => if inSpan uniform then some (splitLabel uniform.toNat count mark) else none

/-- Step 1 of R65: the balance at a boundary and whether it differs from the old one. -/
def TimeScale.takePending (t : TimeScale) : Int × Bool := (t.sumBase, t.sumBase != t.balance)

/-- The time scale unit's handling of a boundary (R65): the count it carries with its mark, if any. Answers the unit, the
leap list and the label of the second beginning; no label with a count given is a span exit (R58). -/
def labelBoundary (t : TimeScale) (leaps : List LeapEntry) (carried : Option (Nat × Mark)) :
    TimeScale × List LeapEntry :=
  let (balance, moved) := t.takePending
  match carried with
  | none => ({ balance := balance, pendingBalance := none, label := none }, leaps)
  | some (c, mark) =>
    let (balance', leaps') := applyDue c balance leaps
    let mark' := if moved && mark = .none then .step else mark
    ({ balance := balance', pendingBalance := none, label := labelOf ((c : Int) - balance') leaps' c mark' }, leaps')

end Sys2Proof.Machine
end

