-- ==== Sys2Proof/Machine/Lists.lean ====
section
/-! DEFINITION. The rule lists: order, LATE tests, due transitions, announcements and the leap-hint check (R78 to R94). -/

namespace Sys2Proof.Machine

/-- Insert a leap entry at its place in day order (R79, R81). -/
def insertLeap (e : LeapEntry) : List LeapEntry → List LeapEntry
  | [] => [e]
  | x :: rest => if e.day < x.day then e :: x :: rest else x :: insertLeap e rest

/-- Insert a transition entry at its place in minute order, or replace the entry at its minute (R83, R84). -/
def putTransition (e : Transition) : List Transition → List Transition
  | [] => [e]
  | x :: rest =>
    if e.minute < x.minute then e :: x :: rest
    else if e.minute = x.minute then e :: rest
    else x :: putTransition e rest

/-- The LATE test of a leap entry with leap minute M (R80). -/
def leapLate (s : State) (m : Nat) : Bool :=
  match s.rules.lateRef with
  | some r => decide (m ≤ r)
  | none =>
    match s.timeScale.label with
    | some lab => timeValid s && decide (m ≤ lab.minuteNumber)
    | none => false

/-- The LATE test of a transition entry at minute T (R80). -/
def transitionLate (s : State) (t : Nat) : Bool :=
  match s.rules.lateRef with
  | some r => decide (t ≤ r + 1)
  | none => false

/-- The entries due for a described minute (R88). -/
def dueTransitions (t : Nat) (ts : List Transition) : List Transition := ts.filter (·.minute ≤ t)

/-- The entries not due for a described minute (R88, R90). -/
def laterTransitions (t : Nat) (ts : List Transition) : List Transition := ts.filter (t < ·.minute)

/-- The offset and summer flag that due entries leave, the last one deciding (R88). -/
def civilAfter (r : RuleLists) (due : List Transition) : Int × Bool :=
  match due.getLast? with
  | some e => (e.offset, e.summer)
  | none => (r.offset, r.summer)

/-- CHG_ANN for described minute t (R90). -/
def chgAnn (r : RuleLists) (t : Nat) : Bool :=
  match laterTransitions t r.transitions with
  | e :: _ => decide (e.minute ≤ t + r.changeWindow)
  | [] => false

/-- LEAP_ANN for described minute t (R91). -/
def leapAnn (r : RuleLists) (t : Nat) : Bool :=
  match r.leaps with
  | e :: _ => decide (t ≤ e.leapMinute) && decide (e.leapMinute - t < r.leapWindow)
  | [] => false

/-- LEAP_NEG for described minute t (R91). -/
def leapNeg (r : RuleLists) (t : Nat) : Bool :=
  leapAnn r t && match r.leaps with
    | e :: _ => !e.insert
    | [] => false

/-- The length of a word with transmitted minute n (R121). -/
def wordLength (leaps : List LeapEntry) (n : Nat) : Nat :=
  if leaps.any (fun e => e.insert && e.leapMinute == n) then 61
  else if leaps.any (fun e => !e.insert && e.leapMinute == n) then 59
  else 60

/-- The UTC day of an epoch frame (R93): the inserted second of the head's day belongs to that day. -/
def frameDay (leaps : List LeapEntry) (uniform : Int) : Nat :=
  match leaps with
  | e :: _ => if e.insert ∧ uniform = e.midnight then e.day else (uniform / 86400).toNat
  | [] => (uniform / 86400).toNat

/-- Whether a hint on a day agrees with the leap list; NONE is not checked (R93). -/
def hintMatches (leaps : List LeapEntry) (day : Nat) : LeapHint → Bool
  | .none => true
  | .insertToday => leaps.any (fun e => e.day == day && e.insert)
  | .deleteToday => leaps.any (fun e => e.day == day && !e.insert)

/-- The leap-hint check of a consumed frame whose U lies in the span (R92 to R94). -/
def checkHint (f : EpochFrame) (s : State) : State :=
  let day := frameDay s.rules.leaps ((f.count : Int) - s.timeScale.balance)
  if hintMatches s.rules.leaps day f.hint || s.rules.lastMismatch == some day then s
  else
    (s.withRules { s.rules with lastMismatch := some day }).withStatus { s.status with leapMismatch := true }

end Sys2Proof.Machine
end

