-- ==== Sys2Proof/Machine/Maps.lean ====
section
/-! DEFINITION. Code maps: entries in bytes, membership, the tail rule and the validation checks (R95 to R111). -/

namespace Sys2Proof.Machine

/-- The kind of a kind code, none for a code that is not one of the seven (R96, 12.8). -/
def mapKindOf (code : Nat) : Option MapKind :=
  match code with
  | 0 => some .mark
  | 1 => some .nil
  | 2 => some .const0
  | 3 => some .const1
  | 4 => some .field
  | 5 => some .flag
  | 6 => some .parity
  | _ => none

/-- The code of a kind (12.8). -/
def MapKind.code : MapKind → Nat
  | .mark => 0
  | .nil => 1
  | .const0 => 2
  | .const1 => 3
  | .field => 4
  | .flag => 5
  | .parity => 6

/-- The entry that four bytes hold; none for a kind code that is not one of the seven (R104). A membership count of 3 is
stored as 2 (R194); the other parts are stored as written (R96, log 18). -/
def entryOf (b0 b1 b2 b3 : Byte) : Option MapEntry :=
  (mapKindOf (b0.toNat % 16)).map fun k =>
    { kind := k, members := min 2 (b0.toNat / 16 % 4), code := b1, weight := b2, groups := b3 }

/-- The entries that a list of bytes holds, four each; none when a kind code is unknown or bytes are left over (R104). -/
def entriesOf : List Byte → Option (List MapEntry)
  | [] => some []
  | b0 :: b1 :: b2 :: b3 :: rest =>
    match entryOf b0 b1 b2 b3, entriesOf rest with
    | some e, some es => some (e :: es)
    | _, _ => none
  | _ => none

/-- The four bytes of an entry (12.8). -/
def entryBytes (e : MapEntry) : List Byte := [byteOf (e.kind.code + 16 * e.members), e.code, e.weight, e.groups]

/-- The group codes in an entry's membership part (R96, 12.8). -/
def MapEntry.memberGroups (e : MapEntry) : List Nat :=
  [e.groups.toNat % 16, e.groups.toNat / 16].take e.members

/-- The kinds whose entries can be members of a group (R99). -/
def MapKind.joins : MapKind → Bool
  | .mark => false
  | .nil => false
  | .const0 => true
  | .const1 => true
  | .field => true
  | .flag => true
  | .parity => false

/-- Whether an entry is a member of a group (R99). -/
def MapEntry.memberOf (e : MapEntry) (g : Nat) : Bool := e.kind.joins && decide (g ∈ e.memberGroups)

/-- The group of a PARITY entry (12.8). -/
def MapEntry.parityGroup (e : MapEntry) : Nat := e.code.toNat % 16

/-- The sense of a PARITY entry: true for ODD (12.8). -/
def MapEntry.parityOdd (e : MapEntry) : Bool := e.code.getLsbD 7

/-- Positions of the 61-position source that fill the slots of a word; position 60 is the insert position (R101). -/
def tailPositions (length : Nat) : List Nat :=
  if length = 61 then List.range 59 ++ [60, 59]
  else if length = 59 then List.range 58 ++ [59]
  else List.range 60

/-- Check 4 of R107 for one entry. -/
def MapEntry.namesValid (e : MapEntry) : Bool :=
  match e.kind with
  | .field => decide (e.weight.toNat ∈ validWeights e.code.toNat)
  | .flag => decide (e.code.toNat < 5)
  | .mark => true
  | .nil => true
  | .const0 => true
  | .const1 => true
  | .parity => true

/-- Check 6 of R107 for one entry, against entries 0 to 58 of its bank. -/
def MapEntry.parityFed (bank : List MapEntry) (e : MapEntry) : Bool :=
  e.kind != .parity || (bank.take 59).any (·.memberOf e.parityGroup)

/-- Check 7 of R107 for one entry. -/
def MapEntry.groupsLow (e : MapEntry) : Bool :=
  (e.kind != .parity || decide (e.parityGroup ≤ 7)) && e.memberGroups.all (· ≤ 7)

/-- The number of the first failing validation check of a bank, none when it passes them all (R107). -/
def firstFailingCheck (bank : List MapEntry) : Option Nat :=
  let kindAt (i : Nat) : Option MapKind := (bank[i]?).map (·.kind)
  if kindAt 0 ≠ some .mark then some 1
  else if kindAt 59 ≠ some .nil then some 2
  else if kindAt 60 ≠ some .const0 ∧ kindAt 60 ≠ some .const1 ∧ kindAt 60 ≠ some .nil then some 3
  else if !bank.all (·.namesValid) then some 4
  else if !bank.all (fun e => e.kind.joins || e.members == 0) then some 5
  else if !bank.all (·.parityFed bank) then some 6
  else if !bank.all (·.groupsLow) then some 7
  else none

/-- The active bank (R95). -/
def Assembler.activeBank (a : Assembler) : List MapEntry := if a.active1 then a.bank1 else a.bank0

/-- The shadow bank (R95). -/
def Assembler.shadowBank (a : Assembler) : List MapEntry := if a.active1 then a.bank0 else a.bank1

/-- Replace the shadow bank (R104, R105). -/
def Assembler.setShadow (a : Assembler) (bank : List MapEntry) : Assembler :=
  if a.active1 then { a with bank0 := bank } else { a with bank1 := bank }

/-- Write entries into a bank from a position on (R104). -/
def writeEntries (bank : List MapEntry) (start : Nat) (entries : List MapEntry) : List MapEntry :=
  bank.take start ++ entries ++ bank.drop (start + entries.length)

/-- The swap at the start of an assembly, when a commit is pending (R110). -/
def Assembler.swapIfPending (a : Assembler) : Assembler :=
  if a.commitPending then { a with active1 := !a.active1, commitPending := false } else a

end Sys2Proof.Machine
end

