-- ==== Sys2Proof/Machine/Overrides.lean ====
section
/-! DEFINITION. The override stack: the merge into the view and the expiry step (R133 to R144). The list's head is position
0, the top of the stack. -/

namespace Sys2Proof.Machine

/-- The content the topmost CONTENT entry gives, else NORMAL (R140). -/
def mergedContent : List OverrideEntry → Content
  | [] => .normal
  | e :: rest =>
    match e.value with
    | .content test => if test then .test else .silence
    | .profile _ => mergedContent rest
    | .flag _ _ => mergedContent rest

/-- The profile the topmost PROFILE entry gives, else the selection (R140). -/
def mergedProfile (selection : Fin 4) : List OverrideEntry → Fin 4
  | [] => selection
  | e :: rest =>
    match e.value with
    | .profile p => p
    | .content _ => mergedProfile selection rest
    | .flag _ _ => mergedProfile selection rest

/-- The value the topmost entry of a flag gives, else the normal value (R140). -/
def mergedFlag (f : FlagName) (normal : Bool) : List OverrideEntry → Bool
  | [] => normal
  | e :: rest =>
    match e.value with
    | .flag g v => if g = f then v else mergedFlag f normal rest
    | .content _ => mergedFlag f normal rest
    | .profile _ => mergedFlag f normal rest

/-- All five flags after the merge (R140, R141). -/
def mergedFlags (normal : CodeFlags) (stack : List OverrideEntry) : CodeFlags :=
  { leapAnn := mergedFlag .leapAnn normal.leapAnn stack
    leapNeg := mergedFlag .leapNeg normal.leapNeg stack
    chgAnn := mergedFlag .chgAnn normal.chgAnn stack
    summer := mergedFlag .summer normal.summer stack
    holdover := mergedFlag .holdover normal.holdover stack }

/-- Every entry takes its view mark at the start boundary (R142). -/
def markAll (stack : List OverrideEntry) : List OverrideEntry := stack.map ({ · with mark := true })

/-- One entry at the expiry step (R143): none when it leaves the stack. -/
def OverrideEntry.expire (e : OverrideEntry) : Option OverrideEntry :=
  if e.mark then
    match e.remaining with
    | some n => if n ≤ 1 then none else some { e with remaining := some (n - 1), mark := false }
    | none => some { e with mark := false }
  else some e

/-- The expiry step of a completed assembly (R143). -/
def expireStack (stack : List OverrideEntry) : List OverrideEntry := stack.filterMap (·.expire)

/-- Whether a TEST entry stands on the stack, at any position (R124, R136). -/
def hasTestEntry (stack : List OverrideEntry) : Bool := stack.any (fun e => e.value == .content true)

/-- The first failing check of a test record: symbol 0 MARK, symbol 59 NIL (R124, R136). -/
def testRecordFault (record : List Symbol) : Option Nat :=
  if record[0]? ≠ some .mark then some 1 else if record[59]? ≠ some .nil then some 2 else none

end Sys2Proof.Machine
end

