-- ==== Sys2Proof/Machine/Assembly.lean ====
section
/-! DEFINITION. Code minute assembly: the start boundary and its view, the word, the completion, the end of words
(R113 to R131). -/

namespace Sys2Proof.Machine

/-! ### The word (R119 to R124) -/

/-- The value of a flag in a view (R98). -/
def CodeFlags.value (f : CodeFlags) (code : Nat) : Bool :=
  match code with
  | 0 => f.leapAnn
  | 1 => f.leapNeg
  | 2 => f.chgAnn
  | 3 => f.summer
  | 4 => f.holdover
  | _ => false

/-- ONE or ZERO. -/
def bitSymbol (b : Bool) : Symbol := if b then .one else .zero

/-- The symbol of an entry that is not PARITY (R122); a PARITY entry gives ZERO here and is computed last. -/
def plainSymbol (fv : FieldValues) (flags : CodeFlags) (e : MapEntry) : Symbol :=
  match e.kind with
  | .mark => .mark
  | .nil => .nil
  | .const0 => .zero
  | .const1 => .one
  | .field => bitSymbol (fieldBit fv e.code.toNat e.weight.toNat)
  | .flag => bitSymbol (flags.value e.code.toNat)
  | .parity => .zero

/-- The number of ONE symbols among the members of a group that the word carries (R99, R123). -/
def groupOnes (fv : FieldValues) (flags : CodeFlags) (carried : List MapEntry) (g : Nat) : Nat :=
  carried.countP (fun e => e.memberOf g && plainSymbol fv flags e == .one)

/-- The symbol of a carried entry (R122, R123). -/
def entrySymbol (fv : FieldValues) (flags : CodeFlags) (carried : List MapEntry) (e : MapEntry) : Symbol :=
  match e.kind with
  | .parity => bitSymbol ((groupOnes fv flags carried e.parityGroup % 2 == 1) != e.parityOdd)
  | .mark => plainSymbol fv flags e
  | .nil => plainSymbol fv flags e
  | .const0 => plainSymbol fv flags e
  | .const1 => plainSymbol fv flags e
  | .field => plainSymbol fv flags e
  | .flag => plainSymbol fv flags e

/-- The entries a word of a length carries, slot by slot (R101, R102). -/
def carriedEntries (map : List MapEntry) (length : Nat) : List MapEntry :=
  (tailPositions length).filterMap (map[·]?)

/-- The symbols of a CODED word (R122, R123). -/
def codedSymbols (v : View) : List Symbol :=
  let carried := carriedEntries v.map v.length
  carried.map (entrySymbol v.fields v.flags carried)

/-- The symbols of a TEST word: the record laid by the tail rule, ZERO at the insert position (R124). -/
def testSymbols (record : List Symbol) (length : Nat) : List Symbol :=
  (tailPositions length).filterMap ((record ++ [Symbol.zero])[·]?)

/-- The kind of a word (R120). -/
def View.wordKind (v : View) : WordKind :=
  if v.limited then .suspended
  else match v.content with
    | .silence => .silent
    | .test => .test
    | .normal => .coded

/-- The symbols of a word (R120). -/
def View.wordSymbols (v : View) : List Symbol :=
  match v.wordKind with
  | .suspended => List.replicate v.length .nil
  | .silent => List.replicate v.length .nil
  | .test => testSymbols v.test v.length
  | .coded => codedSymbols v

/-- The word that a view builds (R119). -/
def buildWord (v : View) : CodeWord :=
  { kind := v.wordKind, transmitted := v.transmitted, length := v.length, symbols := v.wordSymbols, fields := v.fields,
    flags := v.flags, profile := v.profile, broken := false }

/-! ### The assembly (R115 to R117) -/

/-- The view taken at the start boundary with label `lab`, from a state in which a pending commit has been swapped (R88,
R115, R116, R140). -/
def takeView (lab : Label) (s : State) : View :=
  let n := lab.minuteNumber + 1
  let t := n + 1
  let due := dueTransitions t s.rules.transitions
  let civil := civilAfter s.rules due
  { start := lab
    map := s.assembler.activeBank
    transmitted := n
    length := wordLength s.rules.leaps n
    due := due
    offset := civil.1
    summer := civil.2
    fields := fieldValues t civil.1 s.assembler.spare
    content := mergedContent s.stack
    profile := mergedProfile s.assembler.selection s.stack
    flags := mergedFlags
      { leapAnn := leapAnn s.rules t, leapNeg := leapNeg s.rules t, chgAnn := chgAnn s.rules t, summer := civil.2,
        holdover := warned s } s.stack
    limited := limited s
    test := s.assembler.test }

/-- The start of an assembly (R115): the swap, the due transitions and the view; the late reference becomes the transmitted
minute (R80) and every stack entry takes its mark (R142). -/
def startAssembly (lab : Label) (s : State) : State :=
  let s1 := s.withAssembler s.assembler.swapIfPending
  let v := takeView lab s1
  ((s1.withAssembler { s1.assembler with assembly := some v, lastViewProfile := some v.profile }).withRules
    { s1.rules with lateRef := some v.transmitted }).withStack (markAll s1.stack)

/-- The rule lists at a completion (R117 step 1): due entries leave and the civil state takes the view's values; without a
due entry nothing changes. -/
def applyTransitions (v : View) (r : RuleLists) : RuleLists :=
  if v.due.isEmpty then r
  else
    { r with
      transitions := r.transitions.filter (fun e => !(v.due.any (·.minute == e.minute)))
      offset := v.offset
      summer := v.summer }

/-- The completion of an assembly (R117): transitions, expiry, word. Nothing when none is in progress. -/
def completeAssembly (s : State) : State :=
  match s.assembler.assembly with
  | none => s
  | some v =>
    ((s.withRules (applyTransitions v s.rules)).withStack (expireStack s.stack)).withAssembler
      { s.assembler with assembly := none, pendingWord := some (buildWord v) }

/-! ### The end of words (R126 to R130, R189) -/

/-- Whether a word that ended completed counts in MINUTES_CODED (R189). -/
def countsAsCoded (w : CodeWord) (code : CodeState) : Bool := w.kind == .coded && !w.broken && code.keys

/-- The current word leaves the code assembler (R128): completed, it may count in MINUTES_CODED; abandoned while the code
keys words, it is marked broken. The current word becomes absent. -/
def endCurrent (completed : Bool) (s : State) : State :=
  match s.assembler.current with
  | none => s
  | some cw =>
    if completed then
      (s.withAssembler { s.assembler with current := none }).withStatus
        (if countsAsCoded cw.word s.carrier.code then
          { s.status with minutesCoded := countUp s.status.minutesCoded }
        else s.status)
    else
      let s1 := if s.carrier.code.keys then markBroken s else s
      s1.withAssembler { s1.assembler with current := none }

/-- Whether the current word's last slot begun was its last slot (R128). -/
def lastSlotBegun (s : State) : Bool :=
  match s.assembler.current with
  | none => false
  | some cw => cw.lastSlot + 1 == cw.word.length

/-- Discard the pending word (R129, R130). -/
def discardPending (s : State) : State := s.withAssembler { s.assembler with pendingWord := none }

/-- Copy the assembly slot setting into the slot in force (R114). -/
def copySlot (s : State) : State := s.withAssembler { s.assembler with slotInForce := s.assembler.slotSetting }

/-- R129: at a boundary marked FIRST or STEP the pending word is discarded, the current word abandoned and the late
reference made absent. -/
def dropWords (s : State) : State :=
  let s1 := endCurrent false (discardPending s)
  s1.withRules { s1.rules with lateRef := none }

/-- The hand-over at a boundary with second 0 (R126). A word replaced here has ended completed when its last slot had
begun (R128, log 24). -/
def handOver (s : State) : State :=
  let s1 := endCurrent (lastSlotBegun s) s
  s1.withAssembler
    { s1.assembler with
      current := s1.assembler.pendingWord.map ({ word := ·, lastSlot := 0 })
      pendingWord := none }

/-- The current word's last slot begun becomes the label's second (R127). -/
def beginSlot (second : Nat) (s : State) : State :=
  s.withAssembler { s.assembler with current := s.assembler.current.map ({ · with lastSlot := second }) }

/-- The code assembler at a boundary with this label (R114, R115, R126 to R131). An assembly in progress has been completed
before (R117). -/
def assemblerBoundary (label : Option Label) (s : State) : State :=
  match label with
  | none => copySlot (endCurrent (lastSlotBegun s) (discardPending s))
  | some lab =>
    let s1 := if lab.mark = .none then s else dropWords s
    let s2 := if lab.second = 0 then handOver (copySlot s1) else beginSlot lab.second s1
    if lab.second = s2.assembler.slotInForce ∧ lab.minuteNumber ≠ Config.lastMinute then startAssembly lab s2 else s2

/-- The symbol offered for a slot (R127). -/
def offeredSymbol (label : Option Label) (a : Assembler) : Symbol :=
  match label, a.current with
  | some lab, some cw => if lab.second < cw.word.length then cw.word.symbols.getD lab.second .nil else .nil
  | _, _ => .nil

end Sys2Proof.Machine
end

