-- ==== Sys2Proof/Machine/Lines.lean ====
section
/-! DEFINITION. Station lines: functions and holders, levels, the input functions and the strobes (R176 to R184). What a
filter change or a WRITE_LINES does is in LineEvents.lean. -/

namespace Sys2Proof.Machine

/-- The functions of a line, highest rank first (R176). -/
def functionsOf : LineId → List LineFunction
  | .l0 => [.txHold]
  | .l1 => [.halt]
  | .l2 => [.minuteStrobe, .slotStrobe]
  | .l3 => [.secondStrobe]
  | .l4 => [.holdoverAlarm, .keyEcho]
  | .l5 => [.replyDrive .a]
  | .l6 => [.replyDrive .b, .pulseBAlt]
  | .l7 => []

/-- Whether a function is an output function (R176). -/
def LineFunction.isOutput : LineFunction → Bool
  | .txHold => false
  | .halt => false
  | .minuteStrobe => true
  | .slotStrobe => true
  | .secondStrobe => true
  | .holdoverAlarm => true
  | .keyEcho => true
  | .replyDrive _ => true
  | .pulseBAlt => false

/-- The rank of the holder of a line with an enable set, none for GPIO: the highest enabled function (R176). -/
def holderRank (n : LineId) (enables : Byte) : Option Nat :=
  (List.range (functionsOf n).length).find? enables.getLsbD

/-- The holder of a line, none for GPIO (R176). -/
def holder (s : State) (n : LineId) : Option LineFunction :=
  (holderRank n (s.line n).enables).bind ((functionsOf n)[·]?)

/-- Whether a line is an output: by its holder, or by its direction setting under GPIO (R176). -/
def isOutput (s : State) (n : LineId) : Bool :=
  match holder s n with
  | some f => f.isOutput
  | none => (s.line n).dirOut

/-- Whether an output function is asserted (R181 to R183). The input functions drive nothing. -/
def functionAsserted (s : State) : LineFunction → Bool
  | .minuteStrobe => s.lineUnit.strobes.minute.isSome
  | .slotStrobe => s.lineUnit.strobes.slot.isSome
  | .secondStrobe => s.lineUnit.strobes.second.isSome
  | .holdoverAlarm => warned s
  | .keyEcho => s.keying.keyOut.dip
  | .replyDrive l => decide ((s.link l).tx ≠ .idle)
  | .txHold => false
  | .halt => false
  | .pulseBAlt => false

/-- The logical level of a line, which is its read level (R177). -/
def logicalLevel (s : State) (n : LineId) : Bool :=
  if isOutput s n then
    match holder s n with
    | some f => functionAsserted s f
    | none => (s.line n).level
  else (s.line n).filtered ^^ (s.line n).invert

/-- The raw pin level of a line: driven for an output, as last sampled for an input (R177). -/
def rawLevel (s : State) (n : LineId) : Bool :=
  if isOutput s n then logicalLevel s n ^^ (s.line n).invert else (s.line n).raw

/-- The level found on an input pin: what drives it from outside, else its pull, else the level it floats to (R178). -/
def pinFound (pins : PinIn) (n : LineId) (pull : Pull) : Bool :=
  if pins.driven.getLsbD (LineId.index n) then pins.level.getLsbD (LineId.index n)
  else match pull with
    | .up => true
    | .down => false
    | .none => pins.level.getLsbD (LineId.index n)

/-- TX_HOLD is asserted: it holds L0 and the logical level of L0 is 1 (R159, R180). -/
def txHoldAsserted (s : State) : Bool := holder s .l0 == some .txHold && logicalLevel s .l0

/-- HALT is asserted: it holds L1 and the logical level of L1 is 1 (R173, R180). -/
def haltAsserted (s : State) : Bool := holder s .l1 == some .halt && logicalLevel s .l1

/-- Pulse B is routed from L6 (R184). -/
def routedL6 (s : State) : Bool := holder s .l6 == some .pulseBAlt

/-- Whether an edge select chooses an edge (R179). -/
def EdgeSelect.chooses (e : EdgeSelect) (rising : Bool) : Bool :=
  match e with
  | .none => false
  | .rising => rising
  | .falling => !rising
  | .both => true

/-- The filter of one line at a keying step that finds `raw` on its pin (R178). The change itself is taken by
LINE_FILTER_CHANGE in the same step (log 5). -/
def LineState.sample (ln : LineState) (raw : Bool) : LineState :=
  if raw = ln.filtered then { ln with raw := raw, run := 0, filterDue := false }
  else if ln.run + 1 > ln.filter then { ln with raw := raw, filterDue := true }
  else { ln with raw := raw, run := ln.run + 1 }

/-- One line at a keying step: an input is sampled, an output is left as it is (R178). -/
def sampledLine (s : State) (pins : PinIn) (n : LineId) : LineState :=
  if isOutput s n then s.line n else (s.line n).sample (pinFound pins n (s.line n).pull)

/-- A running strobe timer one keying step on (R181). -/
def strobeTick (t : Option Nat) : Option Nat := t.map (· - 1)

/-- The line unit at a keying step: filters and strobe timers (R178, R181). -/
def lineStep (pins : PinIn) (s : State) : State :=
  s.withLineUnit
    { s.lineUnit with
      lines := PerLine.build (sampledLine s pins)
      strobes :=
        { minute := strobeTick s.lineUnit.strobes.minute
          slot := strobeTick s.lineUnit.strobes.slot
          second := strobeTick s.lineUnit.strobes.second } }

/-- The strobes that start at a boundary with this label (R181). -/
def startStrobes (label : Option Label) (s : State) : State :=
  let load (now : Bool) (t : Option Nat) : Option Nat := if now then some s.lineUnit.strobeWidth else t
  let secondIs (n : Nat) : Bool := label.any (·.second == n)
  s.withLineUnit
    { s.lineUnit with
      strobes :=
        { minute := load (secondIs 0) s.lineUnit.strobes.minute
          slot := load (secondIs s.lineUnit.strobeSlot) s.lineUnit.strobes.slot
          second := load true s.lineUnit.strobes.second } }

/-- The end of a strobe whose timer has run out (R181). -/
def endStrobe (k : Strobe) (s : State) : State :=
  if s.lineUnit.strobes.get k = some 0 then
    s.withLineUnit { s.lineUnit with strobes := s.lineUnit.strobes.set k none }
  else s

end Sys2Proof.Machine
end

