-- ==== Sys2Proof/Machine/Keying.lean ====
section
/-! DEFINITION. The keying generator: slot start, samples, re-alignment (R145 to R162). -/

namespace Sys2Proof.Machine

/-- The shape a profile gives a symbol; none for NIL (R146, R150). -/
def Profile.shape (p : Profile) : Symbol → Option DipShape
  | .zero => some p.zero
  | .one => some p.one
  | .mark => some p.mark
  | .nil => none

/-- The amplitude of sample j from a shape under full level F (R151). -/
def dipAmplitude (full : Nat) (sh : DipShape) (j : Nat) : Nat :=
  if j < sh.rd then full - (full - sh.low) * (j + 1) / sh.rd
  else if j < sh.ldip then sh.low
  else if j < sh.ldip + sh.ru then sh.low + (full - sh.low) * (j - sh.ldip + 1) / sh.ru
  else full

/-- The keying generator's amplitude of sample j (R151). -/
def sampleAmplitude (latch : SlotLatch) (j : Nat) : Nat :=
  match latch.shape with
  | some sh => dipAmplitude latch.full sh j
  | none => latch.full

/-- Whether sample j lies in the dip (R153). -/
def inDip (latch : SlotLatch) (j : Nat) : Bool :=
  match latch.shape with
  | some sh => decide (j < sh.ldip + sh.ru)
  | none => false

/-- The sample word of the present step with these marks: the amplitude from carrier control when it gave one for the step,
else from the latch (R153 to R155; log 6). On a carrier that has left STEADY in a keyed slot and is STEADY again in that same
slot, the latch is still the keyed one, and its dip and DIP mark are sent (DESIGN CHOICE, log 49: R155 says that the latch
holds NIL at such a change, R150 and R154 that it runs on unchanged). -/
def formSample (slotStart minuteStart : Bool) (s : State) : State :=
  s.withKeying
    { s.keying with
      keyOut :=
        { amplitude := s.keying.stepAmp.getD (sampleAmplitude s.keying.latch s.keying.j)
          slotStart := slotStart
          minuteStart := minuteStart
          dip := s.keying.stepAmp.isNone && inDip s.keying.latch s.keying.j } }

/-- The 16 bits of a sample word (12.8). -/
def Sample.bits (w : Sample) : BitVec 16 :=
  BitVec.ofNat 16
    (w.amplitude % 1024 + 1024 * w.slotStart.toNat + 2048 * w.minuteStart.toNat + 4096 * w.dip.toNat)

/-- The latch of a symbol from a profile (R150). -/
def latchOf (profiles : PerProfile Profile) (p : Fin 4) (sym : Symbol) : SlotLatch :=
  { symbol := sym, profile := p, full := (profiles.get p).full, shape := (profiles.get p).shape sym }

/-- The slot start at a boundary with this label (R150, R159, R161): j to 0, TX_HOLD sampled, the symbol and shape latched.
A suppressed symbol other than NIL marks the current word broken. -/
def slotStart (label : Option Label) (s : State) : State :=
  let offered := offeredSymbol label s.assembler
  let keyed := s.carrier.code.keys && s.assembler.current.isSome
  let held := txHoldAsserted s
  let s1 := if held && keyed && offered != .nil then markBroken s else s
  s1.withKeying
    { s1.keying with
      j := 0
      holdSuppress := held
      latch := latchOf s1.keying.profiles (profileInForce s1) (if keyed && !held then offered else .nil) }

/-- A slot re-alignment: j back to 0 and the sample of the pulse step formed again, starting no slot (R156). -/
def realign (s : State) : State := formSample false false (s.withKeying { s.keying with j := 0 })

end Sys2Proof.Machine
end

