-- ==== Sys2Proof/Machine/Carrier.lean ====
section
/-! DEFINITION. Carrier control: ramps, the carrier and code parts of CONTROL, the boundaries, the halt (R163 to R174). -/

namespace Sys2Proof.Machine

/-- Latch Rc and Fr at the beginning of a ramp (R164). -/
def beginRamp (s : State) : State :=
  s.withCarrier { s.carrier with rc := s.carrier.rampSetting, fr := fullInForce s, rampEnd := false }

/-- The amplitude of a ramp step at position k (R165). -/
def rampAmplitude (c : Carrier) : Nat := c.fr * c.k / c.rc

/-- One keying step of carrier control (R165): k moves by one within 0 and Rc (log 20), and the end of the ramp is marked
for the end of the step (log 5). A rise that ended in the step before has made the carrier STEADY for this one (R170). -/
def Carrier.tick (c : Carrier) : Carrier :=
  match c.state with
  | .off => { c with k := 0, justSteady := false }
  | .steady => { c with justSteady := false }
  | .rising =>
    let k := min c.rc (c.k + 1)
    { c with k := k, rampEnd := decide (k = c.rc), justSteady := false }
  | .falling => { c with k := c.k - 1, rampEnd := decide (c.k - 1 = 0), justSteady := false }

/-- The amplitude carrier control gives in a state, none in STEADY (R155, R165). -/
def Carrier.amplitude (c : Carrier) : Option Nat :=
  match c.state with
  | .off => some 0
  | .rising => some (rampAmplitude c)
  | .falling => some (rampAmplitude c)
  | .steady => none

/-- The end of a ramp at the end of its step (R165): RISING becomes STEADY, after the boundary of the step, should one still be
commanded (R170). -/
def completeRising (s : State) : State :=
  if s.carrier.state = .rising ∧ s.carrier.rampEnd = true then
    s.withCarrier { s.carrier with state := .steady, rampEnd := false, justSteady := true }
  else s

/-- The end of a ramp at the end of its step (R165): FALLING becomes OFF. -/
def completeFalling (s : State) : State :=
  if s.carrier.state = .falling ∧ s.carrier.rampEnd = true then
    s.withCarrier { s.carrier with state := .off, rampEnd := false }
  else s

/-- CONTROL carrier ON (R166, R174). -/
def carrierOn (s : State) : Except Reason State :=
  if s.carrier.haltLatch || haltAsserted s then .error .state
  else match s.carrier.state with
    | .off =>
      let s1 := beginRamp s
      .ok (s1.withCarrier { s1.carrier with state := .rising, k := 0 })
    | .falling => .ok (s.withCarrier { s.carrier with state := .rising, rampEnd := false })
    | .rising => .ok s
    | .steady => .ok s

/-- CONTROL carrier OFF, never refused (R167). -/
def carrierOff (s : State) : State :=
  match s.carrier.state with
  | .steady =>
    if s.carrier.code.keys then s.withCarrier { s.carrier with code := .ending, offAfter := true }
    else
      let s1 := beginRamp s
      s1.withCarrier { s1.carrier with state := .falling, k := s1.carrier.rc, code := .off }
  | .rising => s.withCarrier { s.carrier with state := .falling, code := .off, rampEnd := false }
  | .off => s
  | .falling => s

/-- CONTROL code ON (R168). -/
def codeOn (s : State) : Except Reason State :=
  match s.carrier.state with
  | .off => .error .state
  | .falling => .error .state
  | .rising =>
    match s.carrier.code with
    | .off => .ok (s.withCarrier { s.carrier with code := .armed })
    | .armed => .ok s
    | .running => .ok s
    | .ending => .ok s
  | .steady =>
    match s.carrier.code with
    | .off => .ok (s.withCarrier { s.carrier with code := .armed })
    | .armed => .ok s
    | .running => .ok s
    | .ending => if s.carrier.offAfter then .error .state else .ok (s.withCarrier { s.carrier with code := .running })

/-- CONTROL code OFF, never refused (R169). -/
def codeOff (s : State) : State :=
  match s.carrier.code with
  | .running => s.withCarrier { s.carrier with code := .ending }
  | .armed => s.withCarrier { s.carrier with code := .off }
  | .off => s
  | .ending => s

/-- Whether a boundary with this label ends an ENDING code: second 0, no count, or a mark (R171). -/
def endsCode (label : Option Label) : Bool :=
  match label with
  | none => true
  | some lab => lab.second == 0 || lab.mark != .none

/-- The fall that the carrier-off-after-minute flag brings at a boundary (R171): the boundary step sends the first falling
sample. -/
def fallAtBoundary (s : State) : State :=
  let s1 := beginRamp s
  let c : Carrier := { s1.carrier with state := .falling, k := s1.carrier.rc - 1, offAfter := false }
  (s1.withCarrier c).withKeying { s1.keying with stepAmp := some (rampAmplitude c) }

/-- Carrier control at a boundary (R170 to R172); `handed` says that a pending word has become current at it. A carrier that
became STEADY in the step of the boundary is STEADY only after it, and the code waits (R170). -/
def carrierBoundary (label : Option Label) (handed : Bool) (s : State) : State :=
  match s.carrier.code with
  | .armed =>
    if label.any (·.second == 0) && handed && s.carrier.state == .steady && !s.carrier.justSteady then
      s.withCarrier { s.carrier with code := .running }
    else s
  | .ending =>
    if endsCode label then
      let s1 := s.withCarrier { s.carrier with code := .off }
      if s1.carrier.offAfter then fallAtBoundary s1 else s1
    else s
  | .off => s
  | .running => s

/-- The ramp position that stands for an amplitude: ceil(Rc·A / Fr), at most Rc (R173; log 20). -/
def positionFor (rc fr a : Nat) : Nat := min rc ((rc * a + fr - 1) / fr)

/-- The fall from a ramp position, straight to OFF from 0 (R173 step 4). -/
def fallFrom (k : Nat) (s : State) : State :=
  s.withCarrier { s.carrier with state := if k = 0 then .off else .falling, k := k, rampEnd := false }

/-- A HALT assertion (R173). A is the amplitude of the last sample word sent. -/
def haltAssertion (s : State) : State :=
  let a := s.keying.keyOut.amplitude
  let s1 := if s.carrier.code = .running then markBroken s else s
  let s2 := (s1.withCarrier { s1.carrier with code := .off, offAfter := false, haltLatch := true }).withStatus
    { s1.status with haltSeen := true }
  match s2.carrier.state with
  | .steady =>
    let s3 := beginRamp s2
    fallFrom (positionFor s3.carrier.rc s3.carrier.fr a) s3
  | .rising => fallFrom (positionFor s2.carrier.rc s2.carrier.fr a) s2
  | .falling => s2
  | .off => s2

/-- Take a HALT assertion when HALT has passed to asserted since `before` (R173, R180). -/
def noteHalt (before s : State) : State :=
  if !haltAsserted before && haltAsserted s then haltAssertion s else s

end Sys2Proof.Machine
end

