-- ==== Sys2Proof/Machine/Boundary.lean ====
section
/-! DEFINITION. The second boundary, one event through all blocks (R41, R56, R58, R65; the order of the blocks is log 33). -/

namespace Sys2Proof.Machine

/-- What makes a boundary: the flywheel (a wrap, or a steering pulse in its place), or an adoption with the frame's S and
its mark (R41, R52, R54). -/
inductive BoundaryCause where
  | advance
  | adopted (count : Nat) (mark : Mark)
deriving DecidableEq, Repr

/-- The count a boundary is to carry, with its mark; none while time is absent (R41). -/
def carriedCount (cause : BoundaryCause) (tb : Timebase) : Option (Nat × Mark) :=
  match cause with
  | .advance => tb.count.map (fun c => (c + 1, Mark.none))
  | .adopted c mark => some (c, mark)

/-- A monitor at a span exit: ACTIVE becomes QUALIFIED and keeps the rest (R58). -/
def Monitor.afterSpanExit (mon : Monitor) : Monitor :=
  if mon.state = .active then { mon with state := .qualified } else mon

/-- The timebase at a boundary with this label: time valid with the label's count, one more holdover second when there is no
active source (R56); without a label time is absent and no source is active (R41, R58). Either way the boundary of the keying
step is formed (log 41). -/
def Timebase.atBoundary (tb : Timebase) (label : Option Label) : Timebase :=
  match label with
  | some lab =>
    { tb with
      count := some lab.count
      wrapDue := false
      formed := .atPulse
      holdover := if tb.active.isNone then min Config.holdoverMax (tb.holdover + 1) else tb.holdover }
  | none =>
    { tb with
      count := none
      wrapDue := false
      formed := .atPulse
      active := none
      monitors := { a := tb.monitors.a.afterSpanExit, b := tb.monitors.b.afterSpanExit } }

/-- Timebase and time scale unit at a boundary (R41, R56, R58, R65). -/
def timeBoundary (cause : BoundaryCause) (s : State) : State :=
  let r := labelBoundary s.timeScale s.rules.leaps (carriedCount cause s.timebase)
  ((s.withTimeScale r.1).withRules { s.rules with leaps := r.2 }).withTimebase (s.timebase.atBoundary r.1.label)

/-- Whether the label's second is 0: the slot 0 of a minute. -/
def atSlotZero (label : Option Label) : Bool := label.any (·.second == 0)

/-- The second boundary: an assembly in progress is completed (R117); then the timebase and the time scale unit, the code
assembler, carrier control, the keying generator and the strobes handle it, and the sample of the step is formed. -/
def secondBoundary (cause : BoundaryCause) (s : State) : State :=
  let s1 := noteLimited s (timeBoundary cause (completeAssembly s))
  let label := s1.timeScale.label
  let s2 := assemblerBoundary label s1
  let s3 := carrierBoundary label (atSlotZero label && s2.assembler.current.isSome) s2
  formSample true (atSlotZero label) (startStrobes label (slotStart label s3))

/-- Take the wrap of the present keying step, unless a pulse has replaced it (R41). -/
def takeWrap (s : State) : State := if s.timebase.wrapDue then secondBoundary .advance s else s

end Sys2Proof.Machine
end

