-- ==== Sys2Proof/Machine/Timebase.lean ====
section
/-! DEFINITION. Source monitors, pulses, adoption and holdover (R42 to R60). -/

namespace Sys2Proof.Machine

/-- The pulse offset e at flywheel position m (R42). -/
def pulseOffset (m : Nat) : Int := if m < 500 then m else (m : Int) - 1000

/-- Whether two offsets differ by at most W, taken modulo 1000 into -500 to +499 (R44 condition 5). -/
def offsetsWithin (w : Nat) (e last : Int) : Bool := decide (((e - last + 500) % 1000 - 500).natAbs ≤ w)

/-- The judgement of a second (R44). -/
inductive Judgement where
  | good | starting | bad
deriving DecidableEq, Repr

/-- Conditions 2 and 3 of R44: quality and span. -/
def frameUsable (set : TimebaseSettings) (balance : Int) (f : EpochFrame) : Bool :=
  (f.quality == .locked || (f.quality == .degraded && set.acceptDegraded)) && inSpan ((f.count : Int) - balance)

/-- Condition 6 of R44: an ACTIVE monitor's pulse lies within W of the boundary. -/
def notStray (set : TimebaseSettings) (mon : Monitor) (e : Int) : Bool :=
  mon.state != .active || decide (e.natAbs ≤ set.window)

/-- The judgement of a pulse (R44). -/
def judgePulse (set : TimebaseSettings) (balance : Int) (mon : Monitor) (frame : Option EpochFrame) (e : Int) : Judgement :=
  match frame with
  | none => .bad
  | some f =>
    if !frameUsable set balance f then .bad
    else match mon.last with
      | none => .starting
      | some (lastS, lastE) =>
        if f.count == lastS + 1 && offsetsWithin set.window e lastE && notStray set mon e then .good else .bad

/-- A bad second (R46, R49): counted; the run is lost; an ACTIVE monitor leaves the active source NONE. -/
def badSecond (x : Link) (s : State) : State :=
  let mon := s.monitor x
  let s1 := s.setMonitor x { mon with state := if mon.state = .down then .down else .hunting, good := 0, last := none }
  let s2 := if mon.state = .active then s1.withTimebase { s1.timebase with active := none } else s1
  noteLimited s
    (s2.withStatus { s2.status with badSeconds := s2.status.badSeconds.set x (countUp (s2.status.badSeconds.get x)) })

/-- The pulse sets m to 0, so its own offset in the new flywheel is 0 (R46). -/
def setPhase (x : Link) (s : State) : State :=
  let s1 := s.withTimebase { s.timebase with m := 0 }
  s1.setMonitor x { s1.monitor x with last := (s1.monitor x).last.map (fun p => (p.1, 0)) }

/-- A good pulse of the active source steers the flywheel (R48): early, it is the boundary; on time, the wrap is; late, the
slot is re-aligned. -/
def steer (x : Link) (e : Int) (s : State) : State :=
  if e < 0 then secondBoundary .advance (setPhase x s)
  else if e = 0 then s
  else realign (setPhase x s)

/-- The count expected of the second a pulse marks (R51): c + 1 while its boundary is still to come, in this step or later,
and c after it. -/
def expectedCount (tb : Timebase) (c : Nat) (e : Int) : Nat :=
  if 0 < e then c else if e = 0 then (if tb.wrapDue then c + 1 else c) else c + 1

/-- Whether a pulse agrees with the flywheel (R51). -/
def agrees (s : State) (f : EpochFrame) (e : Int) : Bool :=
  decide (e.natAbs ≤ s.timebase.settings.window) &&
  match s.timebase.count with
  | none => false
  | some c => f.count == expectedCount s.timebase c e

/-- Make a source the active one; a source that was active becomes QUALIFIED and keeps the rest (R50, R55). -/
def activate (x : Link) (s : State) : State :=
  let other := s.monitor x.other
  let s1 := s.setMonitor x.other (if other.state = .active then { other with state := .qualified } else other)
  let s2 := s1.setMonitor x { s1.monitor x with state := .active }
  s2.withTimebase { s2.timebase with active := some x, holdover := 0 }

/-- An adoption (R50, R52 to R54), with the frame's S and the pulse's offset. -/
def adopt (x : Link) (f : EpochFrame) (e : Int) (s : State) : State :=
  let s1 := activate x s
  if !timeValid s then secondBoundary (.adopted f.count .first) (setPhase x s1)
  else if agrees s f e then steer x e s1
  else
    let s2 := s1.withStatus { s1.status with timeSteps := countUp s1.status.timeSteps, timeStep := true }
    secondBoundary (.adopted f.count .step) (setPhase x s2)

/-- A good pulse of a QUALIFIED source while the other is ACTIVE (R55). -/
def revertiveTest (x : Link) (f : EpochFrame) (e : Int) (s : State) : State :=
  if agrees s f e then
    if s.timebase.settings.revertive && s.timebase.settings.preferred == x then steer x e (activate x s) else s
  else s.withStatus { s.status with sourceDisagree := true }

/-- A monitor after a good second (R46): the count saturates at N, and a HUNTING monitor that reaches N is QUALIFIED. -/
def Monitor.afterGood (mon : Monitor) (n : Nat) (f : EpochFrame) (e : Int) : Monitor :=
  let good := min n (mon.good + 1)
  { mon with
    good := good
    last := some (f.count, e)
    state := if mon.state = .hunting ∧ n ≤ good then .qualified else mon.state }

/-- What a good pulse does (R46, R48, R50, R55). -/
def goodSecond (x : Link) (f : EpochFrame) (e : Int) (s : State) : State :=
  let wasActive := (s.monitor x).state = .active
  let s1 := s.setMonitor x ((s.monitor x).afterGood s.timebase.settings.qualify f e)
  if wasActive then steer x e s1
  else if (s1.monitor x).state = .qualified then
    if s1.timebase.active = none then adopt x f e s1 else revertiveTest x f e s1
  else s1

/-- A starting second (R46). -/
def startingSecond (x : Link) (f : EpochFrame) (e : Int) (s : State) : State :=
  s.setMonitor x { s.monitor x with good := 0, last := some (f.count, e) }

/-- Consume the epoch latch and restart the pulse timer (R44, R45). -/
def consumePulse (x : Link) (s : State) : State :=
  let s1 := s.setLink x { s.link x with latch := none }
  s1.setMonitor x { s1.monitor x with timer := some 0, missed := 0, missDue := false }

/-- What a consumed frame brings before the judgement: EPOCH_RANGE outside the span (R44), else the leap-hint check (R92). -/
def noteFrame (x : Link) (frame : Option EpochFrame) (s : State) : State :=
  match frame with
  | none => s
  | some f => if inSpan ((f.count : Int) - s.timeScale.balance) then checkHint f s else recordError x .epochRange s

/-- A stray pulse of an ACTIVE monitor is counted (R44). -/
def noteStray (x : Link) (e : Int) (s : State) : State :=
  if notStray s.timebase.settings (s.monitor x) e then s
  else s.withStatus { s.status with strayPulses := s.status.strayPulses.set x (countUp (s.status.strayPulses.get x)) }

/-- A pulse of a source judged and handled (R44 to R55). Its position is m as it stands: a second source's pulse in a keying step
in which another pulse has just set m to 0 reads the new m, so that its offset is 0 and the count it is compared with is c
(DESIGN CHOICE, log 40: R42 does not say whether that position is m before or after the other pulse). -/
def judgeSecond (x : Link) (s : State) : State :=
  let frame := (s.link x).latch
  let e := pulseOffset s.timebase.m
  let judgement := judgePulse s.timebase.settings s.timeScale.balance (s.monitor x) frame e
  let s1 := noteStray x e (noteFrame x frame (consumePulse x s))
  match judgement, frame with
  | .good, some f => goodSecond x f e s1
  | .starting, some f => startingSecond x f e s1
  | _, _ => badSecond x s1

/-- Whether a pulse comes too late for the present keying step, which makes at most one boundary (R42, R152): the wrap's boundary
is formed, or a pulse has made the boundary and left no active source, so that this one might make another (log 41). -/
def pulseWaits (s : State) : Bool :=
  match s.timebase.formed with
  | .none => false
  | .atPulse => s.timebase.active.isNone
  | .atWrap => true

/-- A pulse of a source. While the monitor is DOWN the timebase takes none (R42); one that comes too late for its keying step
waits for the next (log 41); any other is judged at once. The boundary of a wrap in the same step follows it in the same
event (R42). The position that a second source's pulse reads is said at judgeSecond (log 40). -/
def takePulse (x : Link) (s : State) : State :=
  if (s.monitor x).state = .down then s
  else if pulseWaits s then s.setMonitor x { s.monitor x with waiting := true }
  else judgeSecond x s

/-- A pulse that waited for this keying step is taken at it (log 41). -/
def takeWaiting (x : Link) (s : State) : State :=
  if (s.monitor x).waiting then takePulse x (s.setMonitor x { s.monitor x with waiting := false }) else s

/-- A missing second whose expiry belongs to the present step (R45). The expiry is that of the KEYING_STEP at which the timer
reached it, under the W in force there: a SET_TIMEBASE that raises W, taken after that KEYING_STEP and before this command, does
not take it back (DESIGN CHOICE, log 46: R45 and R60 do not say which W decides within that very step). -/
def takeMissing (x : Link) (s : State) : State :=
  if (s.monitor x).missDue then
    badSecond x (s.setMonitor x { s.monitor x with missDue := false, missed := (s.monitor x).missed + 1 })
  else s

/-- A monitor's pulse timer one keying step on (R45, R60): the next expiry is due from 1000·(missed + 1) + W steps. -/
def Monitor.tick (mon : Monitor) (w : Nat) : Monitor :=
  match mon.timer with
  | none => mon
  | some t => { mon with timer := some (t + 1), missDue := decide (1000 * (mon.missed + 1) + w ≤ t + 1) }

/-- The timebase at a keying step (R40, R45). -/
def Timebase.tick (tb : Timebase) : Timebase :=
  { tb with
    m := (tb.m + 1) % 1000
    wrapDue := decide (tb.m = 999)
    formed := .none
    monitors := { a := tb.monitors.a.tick tb.settings.window, b := tb.monitors.b.tick tb.settings.window } }

end Sys2Proof.Machine
end

