-- ==== Sys2Proof/Machine/LineEvents.lean ====
section
/-! DEFINITION. What changes a line's logical level: the filter and a WRITE_LINES (R176 to R180, R184, R186). -/

namespace Sys2Proof.Machine

/-- An edge of an input line's logical level (R179, R184): the edge-event flag where edge select chooses it, and on a routed
L6 a rising edge waits for the timebase as a pulse (log 27). A second rising edge in one keying step, with no PULSE taken
between the two, adds nothing to the first: they are one pulse (DESIGN CHOICE, log 50: R184 does not say). -/
def noteEdge (n : LineId) (rising routed : Bool) (s : State) : State :=
  let s1 :=
    if (s.line n).edge.chooses rising then s.setLine n { s.line n with edgeFlag := true } else s
  if n = .l6 ∧ routed = true ∧ rising = true then s1.withLineUnit { s1.lineUnit with l6Pulse := true } else s1

/-- The filtered pin level of an input line changes (R178): the logical level follows, with its edge, and HALT (R180). -/
def takeFilterChange (n : LineId) (s : State) : State :=
  if (s.line n).filterDue = true ∧ isOutput s n = false then
    let s1 := s.setLine n { s.line n with filtered := !(s.line n).filtered, run := 0, filterDue := false }
    noteHalt s (noteEdge n (logicalLevel s1 n) (routedL6 s1) s1)
  else s

/-- The settings of a line that WRITE_LINES carries (R186). -/
structure LineSettings where
  enables : Byte
  dirOut : Bool
  level : Bool
  invert : Bool
  pull : Pull
  edge : EdgeSelect
  filter : Nat
deriving DecidableEq, Repr

/-- A line with its settings replaced (R186). -/
def LineState.withSettings (ln : LineState) (w : LineSettings) : LineState :=
  { ln with
    enables := w.enables, dirOut := w.dirOut, level := w.level, invert := w.invert, pull := w.pull, edge := w.edge,
    filter := w.filter }

/-- WRITE_LINES of a line (R186): settings, holder and direction at the take; the filter starts from the level found when the
line becomes an input (R178), and a filter time written to an output does the same with the driven level (log 22); a change of
invert on a line that stays an input is an edge (R179, log 21). On L6 the edge is a pulse only when L6 is routed both before
and after the take: one WRITE_LINES that raises the level and changes the route too makes none (DESIGN CHOICE, log 44: R184
does not say). Of a line that becomes an input, the raw level too is the level found at the take, and is reported so until the
next keying step samples the pin (DESIGN CHOICE, log 47: R177 speaks of the level at the last keying step, R178 of the one
found at the take). TX_HOLD, HALT and the pulse route follow (R180, R184). -/
def applyLineSettings (n : LineId) (w : LineSettings) (pins : PinIn) (s : State) : State :=
  let old := s.line n
  let wasOut := isOutput s n
  let wasRouted := routedL6 s
  let s1 := s.setLine n (old.withSettings w)
  let nowOut := isOutput s1 n
  let found := if nowOut then rawLevel s1 n else pinFound pins n w.pull
  let ln := s1.line n
  let s2 := s1.setLine n
    (if nowOut then
      if old.filter = w.filter then { ln with filterDue := false }
      else { ln with filtered := found, run := 0, filterDue := false }
    else if wasOut then { ln with filtered := found, raw := found, run := 0, filterDue := false }
    else ln)
  let s3 :=
    if !wasOut && !nowOut && old.invert != w.invert then
      noteEdge n (logicalLevel s2 n) (wasRouted && routedL6 s2) s2
    else s2
  noteHalt s s3

end Sys2Proof.Machine
end

