-- ==== Sys2Proof/Machine/Receiver.lean ====
section
/-! DEFINITION. The reference receivers: characters, headers, frames taken at idle (R1 to R17), and the meanings of
BYTE_RECEIVED, CHARACTER_FAULT and IDLE. -/

namespace Sys2Proof.Machine

/-- The name code of READ_STATUS (12.7). -/
def readStatusCode : Byte := 0x26

/-- Record an error and mute the receiver (R4, R6 to R8). -/
def muteWith (l : Link) (k : ErrKind) (s : State) : State := setRx l .muted (recordError l k s)

/-- The kind and length filters of R7, for a header that has passed the address filter. -/
def filterFrame (l : Link) (h : Header) (check : Byte) (s : State) : State :=
  if (h.kind ≠ kindEpoch ∧ h.kind ≠ kindRequest ∧ h.kind ≠ kindFiller) ∨ (h.kind = kindEpoch ∧ h.address ≠ 0) then
    muteWith l .unknownKind s
  else if 240 < h.length.toNat ∨ (h.kind = kindEpoch ∧ h.length ≠ 7) then muteWith l .lengthMismatch s
  else setRx l (.payload h check []) s

/-- The address filter of R7; a corrected header is recorded once it has passed (R6). -/
def filterAddress (l : Link) (h : Header) (corrected : Bool) (check : Byte) (s : State) : State :=
  if h.address ≠ 0 ∧ h.address.toNat ≠ (s.link l).settings.node then setRx l .muted s
  else filterFrame l h check (if corrected then recordError l .headerCorrected s else s)

/-- The header check when the check byte has arrived (R6). -/
def checkHeader (l : Link) (h : Header) (check : Byte) (s : State) : State :=
  match judgeHeader h check with
  | .clean => filterAddress l h false check s
  | .corrected h' => filterAddress l h' true check s
  | .bad => muteWith l .headerBad s

/-- Whether a frame in PAYLOAD is complete: its length and two CRC bytes have been received (R8). -/
def frameComplete (h : Header) (got : List Byte) : Bool := decide (h.length.toNat + 2 ≤ got.length)

/-- A byte stored in PAYLOAD; the second CRC byte brings the CRC check (R8, R9). -/
def storePayload (l : Link) (h : Header) (check : Byte) (got : List Byte) (s : State) : State :=
  if frameComplete h got && crcBytes h (got.take h.length.toNat) != got.drop h.length.toNat then
    muteWith l .checksumBad s
  else setRx l (.payload h check got) s

/-- A byte delivered to the receive state machine (R4, R8, R10's table). -/
def receiveByte (l : Link) (b : Byte) (s : State) : State :=
  match (s.link l).rx with
  | .hunt => if b = delimiter then setRx l (.header []) s else s
  | .header got =>
    match got with
    | [address, kind, length] => checkHeader l { address := address, kind := kind, length := length } b s
    | _ => setRx l (.header (got ++ [b])) s
  | .payload h check got =>
    if frameComplete h got then muteWith l .lengthMismatch s else storePayload l h check (got ++ [b]) s
  | .muted => s

/-- A faulty character delivered to the receive state machine (R4, R8, R10's table). -/
def receiveFault (l : Link) (k : ErrKind) (s : State) : State :=
  match (s.link l).rx with
  | .hunt => s
  | .header _ => muteWith l k s
  | .payload _ _ _ => muteWith l k s
  | .muted => s

/-- An epoch frame is taken (R10, R11). -/
def takeEpoch (l : Link) (f : EpochFrame) (s : State) : State :=
  let s1 := if (s.link l).latch.isSome then recordError l .epochOverwritten s else s
  s1.setLink l { s1.link l with latch := some f }

/-- A request frame is taken (R10, R12, R17). -/
def takeRequestFrame (l : Link) (f : ReqFrame) (s : State) : State :=
  if (s.link l).quarantined = true ∧ f.payload.head? ≠ some readStatusCode then recordError l .droppedQuarantined s
  else if 4 ≤ (s.link l).queue.length then recordError l .queueOverrun s
  else s.setLink l { s.link l with queue := (s.link l).queue ++ [f] }

/-- A complete frame is taken at idle (R10). Kinds other than EPOCH and REQUEST that pass the filters are FILLER. -/
def takeFrame (l : Link) (h : Header) (payload : List Byte) (s : State) : State :=
  if h.kind = kindEpoch then takeEpoch l (epochOf payload) s
  else if h.kind = kindRequest then takeRequestFrame l { address := h.address, payload := payload } s
  else s

/-- Idle at the receiver (R2, R9, R10). -/
def receiveIdle (l : Link) (s : State) : State :=
  match (s.link l).rx with
  | .hunt => s
  | .header _ => setRx l .hunt (recordError l .truncated s)
  | .payload h _ got =>
    if frameComplete h got then takeFrame l h (got.take h.length.toNat) (setRx l .hunt s)
    else setRx l .hunt (recordError l .truncated s)
  | .muted => setRx l .hunt s

/-- BYTE_RECEIVED (R1, R4): an ENABLED link delivers the character as a byte, but for one that began before the link was enabled,
which is not taken (R22). A character that R1 judges faulty under the parity in force when its start bit began (R20) is not
this event (log 1). -/
def execByteReceived (l : Link) (c : RxChar) (s : State) : Out :=
  .next <|
    if (s.link l).enabled then
      if (s.link l).skipping then endCharacter l s
      else match judgeChar (s.link l).charParity c with
      | .byte b => receiveByte l b (endCharacter l s)
      | .framing => s
      | .parity => s
    else s

/-- CHARACTER_FAULT (R1, R4, R8): an ENABLED link delivers the character as a fault of its kind, but for one that began before the
link was enabled, which is not taken (R22). A character without fault under the parity in force when its start bit began
(R20) is not this event (log 1). -/
def execCharacterFault (l : Link) (c : RxChar) (s : State) : Out :=
  .next <|
    if (s.link l).enabled then
      if (s.link l).skipping then endCharacter l s
      else match judgeChar (s.link l).charParity c with
      | .byte _ => s
      | .framing => receiveFault l .framing (endCharacter l s)
      | .parity => receiveFault l .parity (endCharacter l s)
    else s

/-- IDLE (R2): an ENABLED link reacts to the idle of its wire. -/
def execIdle (l : Link) (s : State) : Out := .next (if (s.link l).enabled then receiveIdle l s else s)

end Sys2Proof.Machine
end

