-- ==== Sys2Proof/Machine/Restart.lean ====
section
/-! DEFINITION. The two resets (R23, R38 and each block's table), the ends of a return transmitter's times (R18), and the
meanings POWER_ON_RESET, LEAD_EXPIRY, REPLY_COMPLETE, TAIL_EXPIRY and CHARACTER_IN_PROGRESS_COMPLETED. -/

namespace Sys2Proof.Machine

/-- A link at a soft restart (R23): link state and settings are kept, and a character under way keeps its parity (R20)
and stays untaken where it is (R22). -/
def LinkState.afterRestart (ls : LinkState) (wire : WireIn) : LinkState :=
  { ls with rx := .hunt, latch := none, queue := [], errors := 0, quarantined := false, tx := ls.droppedTx wire }

/-- The timebase at a soft restart (R39): the monitor of a DISABLED link is DOWN; the settings are kept. -/
def Timebase.afterRestart (tb : Timebase) (links : PerLink LinkState) : Timebase :=
  let fresh (l : Link) : Monitor := freshMonitor (if (links.get l).enabled then .hunting else .down)
  { powerOnTimebase with settings := tb.settings, monitors := { a := fresh .a, b := fresh .b } }

/-- A line at a soft restart: the edge-event flag is cleared, all else kept (R175). -/
def LineState.afterRestart (ln : LineState) : LineState := { ln with edgeFlag := false }

/-- The line unit at a soft restart (R175): configuration, filters and strap kept, strobes stopped. -/
def LineUnit.afterRestart (u : LineUnit) : LineUnit :=
  { u with
    lines := PerLine.build (fun n => (u.lines.get n).afterRestart)
    strobes := { minute := none, slot := none, second := none }
    l6Pulse := false }

/-- Soft restart takes effect (R38): every block at its soft-restart values. The source link's transmitter, whose last stop
bit has just left, is IDLE (R23); `wire` is what stands on the other link's wires. -/
def softRestartEffect (src : Link) (wire : WireIn) (s : State) : State :=
  let links := { a := s.links.a.afterRestart wire, b := s.links.b.afterRestart wire : PerLink LinkState }
  { links := links.set src { links.get src with tx := .idle }
    executor := { s.executor with lastServed := .b, restartPending := none }
    timebase := s.timebase.afterRestart s.links
    timeScale := { s.timeScale with label := none }
    rules := { s.rules with lateRef := none, lastMismatch := none }
    assembler :=
      { s.assembler with
        commitPending := false, slotInForce := s.assembler.slotSetting, assembly := none, pendingWord := none,
        current := none, lastViewProfile := none }
    stack := []
    keying := { s.keying with latch := nilLatch s.keying.profiles, j := 0, holdSuppress := false, stepAmp := some 0 }
    carrier :=
      { powerOnCarrier with
        rampSetting := s.carrier.rampSetting, rc := s.carrier.rampSetting, fr := (s.keying.profiles.get 0).full }
    lineUnit := s.lineUnit.afterRestart
    status := clearedStatus
    freeDraws := s.freeDraws
    pending := s.pending }

/-- POWER_ON_RESET (R23): every block at its power-on values, with the pins as the reset's end finds them (R31, R185). The
queue of commands is the environment's and stays (log 26). -/
def execPowerOnReset (pins : PinIn) (s : State) : Out :=
  .next ((State.powerOn pins).withPending s.pending |>.withFreeDraws s.freeDraws)

/-- LEAD_EXPIRY (R18): LEAD becomes SENDING, with the send point. In any other state no lead runs (log 1). -/
def execLeadExpiry (l : Link) (s : State) : Out :=
  .next (match (s.link l).tx with
    | .lead r => sendPoint l r s
    | .idle => s
    | .sending _ _ => s
    | .finishing _ => s
    | .tail => s)

/-- The last stop bit of a reply has left (R18): TAIL when REPLY_DRIVE is enabled and the tail time is not 0, else IDLE. -/
def endReply (l : Link) (s : State) : State :=
  if replyDriveEnabled l s = true ∧ (s.link l).settings.tail ≠ 0 then setTx l .tail s else setTx l .idle s

/-- REPLY_COMPLETE (R18, R38): the reply's last stop bit; that of an awaited SOFT_RESTART reply makes the restart. When no
reply is being sent nothing happens (log 1). -/
def execReplyComplete (l : LinkAndWire) (s : State) : Out :=
  .next (match (s.link l.link).tx with
    | .sending _ _ =>
      if s.executor.restartPending = some l.link then softRestartEffect l.link l.wire s else endReply l.link s
    | .idle => s
    | .lead _ => s
    | .finishing _ => s
    | .tail => s)

/-- TAIL_EXPIRY (R18): TAIL becomes IDLE. In any other state no tail runs (log 1). -/
def execTailExpiry (l : Link) (s : State) : Out :=
  .next (if (s.link l).tx = .tail then setTx l .idle s else s)

/-- CHARACTER_IN_PROGRESS_COMPLETED (R21, R23): the transmitter of a dropped reply goes to IDLE. When none is finishing nothing
happens (log 1). -/
def execCharacterInProgressCompleted (l : Link) (s : State) : Out :=
  .next (match (s.link l).tx with
    | .finishing _ => setTx l .idle s
    | .idle => s
    | .lead _ => s
    | .sending _ _ => s
    | .tail => s)

end Sys2Proof.Machine
end

