-- ==== Sys2Proof/Machine/Operands.lean ====
section
/-! DEFINITION. The operands of requests: fixed fields, argument bytes, choice codes and clamped numbers (R27, R30, R34, R104,
R124, R135, R147, 12.6, 12.7). -/

namespace Sys2Proof.Machine

/-- A request as the executor takes it: its source link, its three fixed fields and its arguments (section 2.3). A broadcast
has address 0 (R12). -/
structure Request where
  src : Link
  broadcast : Bool
  name : Byte
  replyWanted : Bool
  tag : Byte
  args : List Byte
deriving DecidableEq, Repr

/-- The request a frame holds, none when its payload is shorter than the three fixed fields (R27 check 1). -/
def requestOf (src : Link) (f : ReqFrame) : Option Request :=
  match f.payload with
  | name :: flag :: tag :: args =>
    some { src := src, broadcast := f.address == 0, name := name, replyWanted := flag.getLsbD 0, tag := tag, args := args }
  | _ => none

/-- Whether a request gets a reply (R25, R28): the flag is set and the frame is not a broadcast. -/
def Request.wantsReply (rq : Request) : Bool := rq.replyWanted && !rq.broadcast

/-- Argument byte i, 0 past the end (no request reads past the end of arguments of its length). -/
def Request.arg (rq : Request) (i : Nat) : Byte := rq.args.getD i 0

/-- Argument byte i as a number. -/
def Request.num (rq : Request) (i : Nat) : Nat := (rq.arg i).toNat

/-- The two-byte argument at byte i (R194). -/
def Request.num2 (rq : Request) (i : Nat) : Nat := 256 * rq.num i + rq.num (i + 1)

/-- The four-byte argument at byte i (R194). -/
def Request.num4 (rq : Request) (i : Nat) : Nat := 65536 * rq.num2 i + rq.num2 (i + 2)

/-- The signed argument byte i (R194). -/
def Request.signed (rq : Request) (i : Nat) : Int := signedOf (rq.arg i)

/-- A link code: 00h A, 01h B (12.7). -/
def linkOf (b : Byte) : Option Link := if b = 0 then some .a else if b = 1 then some .b else none

/-- An off/on or 0/1 code: 00h, 01h (12.7). -/
def boolOf (b : Byte) : Option Bool := if b = 0 then some false else if b = 1 then some true else none

/-- A parity code (12.7). -/
def parityOf (b : Byte) : Option Parity :=
  if b = 0 then some .none else if b = 1 then some .even else if b = 2 then some .odd else none

/-- A pull code (12.7). -/
def pullOf (b : Byte) : Option Pull :=
  if b = 0 then some .none else if b = 1 then some .up else if b = 2 then some .down else none

/-- An edge-select code (12.7). -/
def edgeOf (b : Byte) : Option EdgeSelect :=
  if b = 0 then some .none else if b = 1 then some .rising else if b = 2 then some .falling
  else if b = 3 then some .both else none

/-- A symbol code (12.7). -/
def symbolOf (b : Byte) : Option Symbol :=
  if b = 0 then some .mark else if b = 1 then some .zero else if b = 2 then some .one
  else if b = 3 then some .nil else none

/-- A flag code (12.7). -/
def flagOf (b : Byte) : Option FlagName :=
  if b = 0 then some .leapAnn else if b = 1 then some .leapNeg else if b = 2 then some .chgAnn
  else if b = 3 then some .summer else if b = 4 then some .holdover else none

/-- The symbols of a list of codes, none when one is unknown (R124). -/
def symbolsOf : List Byte → Option (List Symbol)
  | [] => some []
  | b :: bs =>
    match symbolOf b, symbolsOf bs with
    | some x, some xs => some (x :: xs)
    | _, _ => none

/-- A line code: 00h to 07h (12.7). -/
def lineOf (b : Byte) : Option LineId :=
  if b = 0 then some .l0 else if b = 1 then some .l1 else if b = 2 then some .l2 else if b = 3 then some .l3
  else if b = 4 then some .l4 else if b = 5 then some .l5 else if b = 6 then some .l6
  else if b = 7 then some .l7 else none

/-- A profile number clamped to 3 (R34, R135). -/
def profileOf (n : Nat) : Fin 4 := if n = 0 then 0 else if n = 1 then 1 else if n = 2 then 2 else 3

/-- DONE, or DONE_CLAMPED when a value was clamped (R30). -/
def doneOr (clamped : Bool) : ReplyOutcome := if clamped then .doneClamped else .done

/-- The value of an override that PUSH_OVERRIDE's codes name, with a clamped profile; none for an unknown code (R135 checks 1
and 2). Under CONTENT and PROFILE the flag-value byte is not looked at, whatever its code (DESIGN CHOICE, log 48: R135 checks
it for FLAG alone, and no rule says what becomes of it otherwise). -/
def overrideValueOf (aspect value flagValue : Byte) : Option OverrideValue :=
  if aspect = 0 then (boolOf value).map (fun b => .content b)
  else if aspect = 1 then some (.profile (profileOf value.toNat))
  else if aspect = 2 then
    match flagOf value, boolOf flagValue with
    | some f, some v => some (.flag f v)
    | _, _ => none
  else none

/-- A dip shape from the six argument bytes at i (12.8), as given. -/
def Request.shape (rq : Request) (i : Nat) : DipShape :=
  { ldip := rq.num2 i, low := rq.num2 (i + 2), rd := rq.num (i + 4), ru := rq.num (i + 5) }

/-- A dip shape with its quantities clamped (R146, R147 check 2). -/
def clampShape (d : DipShape) : DipShape :=
  { ldip := clamp 10 900 d.ldip, low := clamp 0 999 d.low, rd := clamp 0 63 d.rd, ru := clamp 0 63 d.ru }

/-- A profile as WRITE_PROFILE gives it (R147). -/
def Request.profile (rq : Request) : Profile :=
  { full := rq.num2 1, zero := rq.shape 3, one := rq.shape 9, mark := rq.shape 15 }

/-- A profile with every quantity clamped (R147 check 2). -/
def clampProfile (p : Profile) : Profile :=
  { full := clamp 100 1000 p.full, zero := clampShape p.zero, one := clampShape p.one, mark := clampShape p.mark }

/-- The first failing relation of a profile (R147 check 3). -/
def profileFault (p : Profile) : Option Nat :=
  let shapes := [p.zero, p.one, p.mark]
  if !shapes.all (fun d => decide (d.low < p.full)) then some 1
  else if !shapes.all (fun d => decide (d.rd ≤ d.ldip)) then some 2
  else if !shapes.all (fun d => decide (d.ldip + d.ru ≤ 950)) then some 3
  else none

end Sys2Proof.Machine
end

