-- ==== Sys2Proof/Machine/Executor.lean ====
section
/-! DEFINITION. The request executor: eligibility, arbitration, the take, rights, replies and reads (R24 to R35). -/

namespace Sys2Proof.Machine

/-- Whether a queued frame wants a reply (R25): its flag is set, its address is not 0 and its payload holds the three fixed
fields. -/
def frameWantsReply (f : ReqFrame) : Bool :=
  match requestOf .a f with
  | some rq => rq.wantsReply
  | none => false

/-- A transmitter that can be offered a reply (R18, R25). -/
def Tx.free : Tx → Bool
  | .idle => true
  | .tail => true
  | .lead _ => false
  | .sending _ _ => false
  | .finishing _ => false

/-- Whether the head request of a link is eligible (R25). -/
def eligible (s : State) (l : Link) : Bool :=
  match (s.link l).queue with
  | [] => false
  | f :: _ => !frameWantsReply f || (s.link l).tx.free

/-- Whether the executor's next take is of this link (R26): its head is eligible, and the other link's is not, or the other
link was served last. -/
def serves (s : State) (l : Link) : Bool :=
  eligible s l && (!eligible s l.other || s.executor.lastServed != l)

/-- The frame the executor takes from a link, if it takes one there (R26). -/
def nextTake (s : State) (l : Link) : Option ReqFrame := if serves s l then (s.link l).queue.head? else none

/-- What a request comes to: its outcome, the reply's data, and the state it leaves (R27, R28). -/
structure Answer where
  outcome : ReplyOutcome
  data : List Byte
  state : State

/-- A request refused: nothing of the part changes (R27). -/
def refuse (r : Reason) (s : State) : Answer :=
  { outcome := .refused r
    data := match r with
      | .validation n => [byteOf n]
      | .permission => []
      | .state => []
      | .range => []
      | .listFull => []
      | .stackFull => []
      | .stackEmpty => []
      | .notFound => []
      | .late => []
      | .pending => []
      | .unknownRequest => []
      | .length => []
    state := s }

/-- A request carried out, with no data. -/
def carriedOut (clamped : Bool) (s : State) : Answer := { outcome := doneOr clamped, data := [], state := s }

/-- The end of a take (R26, R28): a wanted reply is offered to the source link's transmitter, under the node address in
force then (R19). -/
def finishTake (rq : Request) (an : Answer) : State :=
  if rq.wantsReply then
    offerReply rq.src
      { address := (an.state.link rq.src).settings.node, tag := rq.tag, outcome := an.outcome, data := an.data,
        ofStatus := rq.name == readStatusCode } an.state
  else an.state

/-- The request that the executor takes from a link when it takes one whose name is `name` (R26, R27). -/
def takenRequest (name : Byte) (src : Link) (s : State) : Option Request :=
  ((nextTake s src).bind (requestOf src)).filter (fun rq => rq.name == name)

/-- The take of a request by its name: it leaves the queue, the handler answers it, and its reply is offered. Nothing happens
when the executor's next take is another one (log 1, log 3). -/
def takeNamed (name : Byte) (handler : Request → State → Answer) (src : Link) (s : State) : State :=
  match takenRequest name src s with
  | some rq => finishTake rq (handler rq (popTaken src s))
  | none => s

/-! ### Rights (R32) -/

/-- The bit of a class (12.6). -/
def PermClass.bit : PermClass → Nat
  | .link => 0
  | .timebase => 1
  | .rules => 2
  | .maps => 3
  | .profiles => 4
  | .overrides => 5
  | .carrier => 6
  | .code => 7
  | .spare => 8
  | .lines => 9
  | .restart => 10
  | .permissions => 11

/-- Whether a link may write a class (R32). -/
def permitted (s : State) (src : Link) (c : PermClass) : Bool :=
  src == s.executor.privileged || hasBit s.executor.permissions c.bit

/-- Checks 3 and 4 of R27 for a request with fixed arguments and a class: LENGTH, then PERMISSION, then its own checks. -/
def checked (n : Nat) (c : PermClass) (own : Request → State → Answer) (rq : Request) (s : State) : Answer :=
  if rq.args.length ≠ n then refuse .length s
  else if !permitted s rq.src c then refuse .permission s
  else own rq s

/-- Check 3 of R27 alone, for a request with fixed arguments and no class. -/
def lengthChecked (n : Nat) (own : Request → State → Answer) (rq : Request) (s : State) : Answer :=
  if rq.args.length ≠ n then refuse .length s else own rq s

/-! ### Reads (R35) -/

/-- The answer of a read of an image at an offset with a return limit (R35). -/
def readAnswer (image : List Byte) (o r : Nat) (s : State) : Answer :=
  if image.length < o then refuse .range s
  else if o + r < image.length then
    { outcome := .more, data := be2 (o + r) ++ (image.drop o).take r, state := s }
  else { outcome := .done, data := be2 image.length ++ image.drop o, state := s }

/-- A read on its source link, under that link's return limit (R20, R35). -/
def readOn (rq : Request) (image : List Byte) (s : State) : Answer :=
  readAnswer image (rq.num2 0) (s.link rq.src).settings.returnLimit s

/-! ### Requests that are refused whatever their arguments (R27 checks 1 and 2) -/

/-- The codes of the request-name list (12.7). -/
def requestNames : List Nat := (List.range 27).map (· + 1) ++ (List.range 7).map (· + 32)

/-- Whether a code is in the request-name list (R27 check 2). -/
def knownName (b : Byte) : Bool := requestNames.contains b.toNat

/-- The take of a request that R27 refuses at check 1 or 2: too short for the fixed fields, it is taken without a reply;
its name unknown, it is refused with UNKNOWN_REQUEST. -/
def takeUnknown (src : Link) (s : State) : State :=
  match nextTake s src with
  | none => s
  | some f =>
    match requestOf src f with
    | none => popTaken src s
    | some rq => if knownName rq.name then s else finishTake rq (refuse .unknownRequest (popTaken src s))

end Sys2Proof.Machine
end

