-- ==== Sys2Proof/Machine/Images.lean ====
section
/-! DEFINITION. The data images of the reads, byte by byte (R86, R106, R132, R139, R148, R187, R191, 12.8). A bit or a symbol
place of an image that 12.8 neither names nor marks 0 is sent as 0 (DESIGN CHOICE, log 45). -/

namespace Sys2Proof.Machine

/-! ### Codes of 12.6 to 12.8 -/

/-- 0 for A, 1 for B. -/
def Link.code : Link → Nat
  | .a => 0
  | .b => 1

/-- Symbol codes (12.7). -/
def Symbol.code : Symbol → Nat
  | .mark => 0
  | .zero => 1
  | .one => 2
  | .nil => 3

/-- Carrier state codes (12.8, status byte 0). -/
def CarrierState.code : CarrierState → Nat
  | .off => 0
  | .rising => 1
  | .steady => 2
  | .falling => 3

/-- Code state codes (12.8, status byte 0). -/
def CodeState.code : CodeState → Nat
  | .off => 0
  | .armed => 1
  | .running => 2
  | .ending => 3

/-- Monitor state codes (12.8, status byte 8). -/
def MonitorState.code : MonitorState → Nat
  | .down => 0
  | .hunting => 1
  | .qualified => 2
  | .active => 3

/-- Adoption mark codes (12.8, status byte 24). -/
def Mark.code : Mark → Nat
  | .none => 0
  | .first => 1
  | .step => 2

/-- Pull codes (12.7). -/
def Pull.code : Pull → Nat
  | .none => 0
  | .up => 1
  | .down => 2

/-- Edge-select codes (12.7). -/
def EdgeSelect.code : EdgeSelect → Nat
  | .none => 0
  | .rising => 1
  | .falling => 2
  | .both => 3

/-- Word kind codes (12.8). -/
def WordKind.code : WordKind → Nat
  | .coded => 0
  | .test => 1
  | .silent => 2
  | .suspended => 3

/-- Flag codes (12.7). -/
def FlagName.code : FlagName → Nat
  | .leapAnn => 0
  | .leapNeg => 1
  | .chgAnn => 2
  | .summer => 3
  | .holdover => 4

/-- Active source codes: NONE, A, B (12.8, status byte 7). -/
def activeCode : Option Link → Nat
  | none => 0
  | some l => Link.code l + 1

/-! ### The images -/

/-- READ_MAP (R106): the bank number, its role and the commit-pending flag, and the 61 entries. -/
def mapImage (a : Assembler) (bank1 : Bool) : List Byte :=
  [byteOf bank1.toNat, bitsByte [bank1 != a.active1, a.commitPending]]
    ++ (if bank1 then a.bank1 else a.bank0).flatMap entryBytes

/-- The six bytes of a dip shape (12.8). -/
def shapeBytes (d : DipShape) : List Byte := be2 d.ldip ++ be2 d.low ++ [byteOf d.rd, byteOf d.ru]

/-- READ_PROFILE (R148). -/
def profileImage (k : Keying) (selection i : Fin 4) : List Byte :=
  let p := k.profiles.get i
  [byteOf i.val, byteOf selection.val] ++ be2 p.full ++ shapeBytes p.zero ++ shapeBytes p.one ++ shapeBytes p.mark

/-- A leap entry in three bytes (12.8). -/
def leapBytes (e : LeapEntry) : List Byte := be2 e.day ++ [byteOf (!e.insert).toNat]

/-- A transition entry in six bytes (12.8). -/
def transitionBytes (e : Transition) : List Byte := be4 e.minute ++ [signedByte e.offset, byteOf e.summer.toNat]

/-- READ_LISTS (R86). -/
def listsImage (r : RuleLists) : List Byte :=
  [byteOf r.leaps.length] ++ r.leaps.flatMap leapBytes
    ++ [byteOf r.transitions.length] ++ r.transitions.flatMap transitionBytes
    ++ [signedByte r.offset, byteOf r.summer.toNat] ++ be2 r.leapWindow ++ be2 r.changeWindow

/-- Aspect and value of an override in two bytes (12.8). -/
def overrideValueBytes : OverrideValue → List Byte
  | .content test => [0, byteOf test.toNat]
  | .profile p => [1, byteOf p.val]
  | .flag f v => [2, byteOf (f.code + 128 * v.toNat)]

/-- A stack entry in five bytes (12.8). Bits that 12.8 does not name, 2 to 7 of byte 4 among them, are 0 (log
45). -/
def stackEntryBytes (e : OverrideEntry) : List Byte :=
  overrideValueBytes e.value ++ be2 (e.remaining.getD 0) ++ [byteOf (Link.code e.link + 2 * e.mark.toNat)]

/-- READ_STACK (R139). -/
def stackImage (stack : List OverrideEntry) : List Byte := [byteOf stack.length] ++ stack.flatMap stackEntryBytes

/-- Symbols packed four to a byte, the first in bits 0 and 1, into n bytes; unused places are 0 (12.8,
log 45). -/
def packSymbols (n : Nat) (symbols : List Symbol) : List Byte :=
  let code (i : Nat) : Nat := ((symbols[i]?).map Symbol.code).getD 0
  (List.range n).map (fun i => byteOf (code (4 * i) + 4 * code (4 * i + 1) + 16 * code (4 * i + 2) + 64 * code (4 * i + 3)))

/-- A word record in 34 bytes; an absent one is zeros (12.8). -/
def wordBytes (w : Option CodeWord) (lastSlot : Nat) : List Byte :=
  match w with
  | none => List.replicate 34 0
  | some w =>
    [0x01, byteOf w.kind.code] ++ be4 w.transmitted ++ [byteOf w.length] ++ packSymbols 16 w.symbols
      ++ [byteOf w.fields.minute, byteOf w.fields.hour, byteOf w.fields.mday, byteOf w.fields.wday,
          byteOf w.fields.month, byteOf w.fields.year, signedByte w.fields.offset, w.fields.spare]
      ++ [bitsByte [w.flags.leapAnn, w.flags.leapNeg, w.flags.chgAnn, w.flags.summer, w.flags.holdover],
          byteOf (w.profile.val + 128 * w.broken.toNat), byteOf lastSlot]

/-- READ_WORD (R132). -/
def wordImage (a : Assembler) : List Byte :=
  wordBytes (a.current.map (·.word)) ((a.current.map (·.lastSlot)).getD 0) ++ wordBytes a.pendingWord 0
    ++ [byteOf a.assembly.isSome.toNat] ++ be4 ((a.assembly.map (·.transmitted)).getD 0)
    ++ [byteOf a.slotSetting, byteOf a.slotInForce, a.spare] ++ packSymbols 15 a.test

/-- The six bytes of a line (12.8). -/
def lineBytes (s : State) (n : LineId) : List Byte :=
  let ln := s.line n
  [ln.enables,
    match holderRank n ln.enables with
    | some r => byteOf r
    | none => 0xFF,
    bitsByte [ln.dirOut, isOutput s n, ln.level, ln.invert],
    byteOf (ln.pull.code + 16 * ln.edge.code),
    byteOf ln.filter,
    bitsByte [logicalLevel s n, rawLevel s n, ln.edgeFlag]]

/-- READ_LINES (R187). -/
def linesImage (s : State) : List Byte :=
  allLines.flatMap (lineBytes s) ++ be2 s.lineUnit.strobeWidth
    ++ [byteOf s.lineUnit.strobeSlot, byteOf (Link.code s.lineUnit.strap)]

/-- Bytes 19 to 29 of the status record: the label; zeros while it is absent (12.8). -/
def labelBytes : Option Label → List Byte
  | none => List.replicate 11 0
  | some lab =>
    be2 lab.day ++ [byteOf lab.hour, byteOf lab.minute, byteOf lab.second,
      byteOf (lab.inserted.toNat + 2 * lab.mark.code + 128)] ++ be5 lab.count

/-- A last offset in two bytes; 8000h when absent (12.8). -/
def offsetBytes (mon : Monitor) : List Byte :=
  match mon.last with
  | none => [0x80, 0x00]
  | some (_, e) => signedBe2 e

/-- The nine counters in record order (12.8, bytes 46 to 63). -/
def counterBytes (u : StatusUnit) : List Byte :=
  be2 u.brokenMinutes ++ be2 u.timeSteps ++ be2 u.minutesCoded ++ be2 u.strayPulses.a ++ be2 u.strayPulses.b
    ++ be2 u.badSeconds.a ++ be2 u.badSeconds.b ++ be2 u.framesDiscarded.a ++ be2 u.framesDiscarded.b

/-- The status record, 64 bytes (R191, 12.8). `free` stands in the pending-balance byte while no balance is pending (log
13). Bits that 12.8 neither names nor marks 0, as in bytes 8, 24 and 34, are 0 (log 45). -/
def statusRecord (s : State) (free : Byte) : List Byte :=
  let c := s.carrier
  let tb := s.timebase
  let ts := s.timeScale
  let a := s.assembler
  [byteOf (c.state.code + 4 * c.code.code + 16 * c.offAfter.toNat + 32 * c.haltLatch.toNat
      + 64 * s.keying.holdSuppress.toNat + 128 * (timeValid s).toNat)]
    ++ be2 c.k ++ be2 c.rc ++ be2 c.rampSetting
    ++ [byteOf (activeCode tb.active + 4 * (warned s).toNat + 8 * (limited s).toNat
          + 16 * (Link.code s.executor.privileged) + 32 * (Link.code s.lineUnit.strap)
          + 64 * s.links.a.quarantined.toNat + 128 * s.links.b.quarantined.toNat),
        byteOf (tb.monitors.a.state.code + 16 * tb.monitors.b.state.code),
        byteOf tb.monitors.a.good, byteOf tb.monitors.b.good]
    ++ offsetBytes tb.monitors.a ++ offsetBytes tb.monitors.b ++ be4 tb.holdover
    ++ labelBytes ts.label
    ++ [signedByte ts.balance,
        match ts.pendingBalance with
        | some x => signedByte x
        | none => free,
        bitsByte [ts.pendingBalance.isSome, s.rules.summer, a.commitPending, a.pendingWord.isSome],
        signedByte s.rules.offset,
        byteOf (s.rules.leaps.length + 16 * s.stack.length),
        byteOf s.rules.transitions.length,
        byteOf a.selection.val,
        byteOf tb.settings.window, byteOf tb.settings.qualify,
        bitsByte [tb.settings.preferred == .b, tb.settings.revertive, tb.settings.acceptDegraded]]
    ++ be2 tb.settings.warn ++ be2 tb.settings.limit
    ++ [bitsByte [s.status.timeStep, s.status.sourceDisagree, s.status.leapMismatch, s.status.haltSeen,
          s.status.holdoverLimited],
        bitsByte (allLines.map (fun n => (s.line n).edgeFlag))]
    ++ counterBytes s.status

end Sys2Proof.Machine
end

