-- ==== Sys2Proof/Machine/RequestsLinks.lean ====
section
/-! DEFINITION. Requests on the links, the rights and the part as a whole: SET_LINK, SET_RETURN_LIMIT, DISABLE_LINK,
ENABLE_LINK, SET_PERMISSIONS, SOFT_RESTART, UNKNOWN_REQUEST (R21, R22, R27, R33, R36, R37). -/

namespace Sys2Proof.Machine

/-- A link with new settings (R20, R36): a character whose start bit has begun, on either wire, keeps the parity it began
with, and one that is not taken stays so (R22). -/
def LinkState.withSettings (ls : LinkState) (wire : WireIn) (settings : LinkSettings) : LinkState :=
  { ls with
    settings := settings
    tx := ls.tx.withBegun ls.settings.parity wire.begun
    oldParity := if ls.enabled && wire.underWay && !ls.skipping then some ls.charParity else none
    skipping := ls.skipping && wire.underWay }

/-- SET_LINK's own checks and effect (R36): a code that is no choice is refused, numbers are clamped. -/
def setLinkAnswer (wire : WireIn) (rq : Request) (s : State) : Answer :=
  match linkOf (rq.arg 0), parityOf (rq.arg 2), boolOf (rq.arg 3) with
  | some target, some parity, some stop =>
    let node := clamp 1 63 (rq.num 1)
    let lead := clamp 0 15 (rq.num 4)
    let tail := clamp 0 15 (rq.num 5)
    carriedOut (node != rq.num 1 || lead != rq.num 4 || tail != rq.num 5)
      (s.setLink target
        ((s.link target).withSettings wire
          { (s.link target).settings with
            node := node, parity := parity, stopOnError := stop, lead := lead, tail := tail }))
  | _, _, _ => refuse .range s

/-- SET_LINK (R36). -/
def execSetLink (src : LinkAndWire) (s : State) : Out :=
  .next (takeNamed 0x01 (checked 6 .link (setLinkAnswer src.wire)) src.link s)

/-- SET_RETURN_LIMIT's effect on its source link (R36). -/
def setReturnLimitAnswer (rq : Request) (s : State) : Answer :=
  let v := clamp 8 192 (rq.num 0)
  carriedOut (v != rq.num 0)
    (s.setLink rq.src { s.link rq.src with settings := { (s.link rq.src).settings with returnLimit := v } })

/-- SET_RETURN_LIMIT (R36). -/
def execSetReturnLimit (src : Link) (s : State) : Out :=
  .next (takeNamed 0x02 (checked 1 .link setReturnLimitAnswer) src s)

/-- A link disabled (R21): the settings are kept. -/
def LinkState.disabled (ls : LinkState) (wire : WireIn) : LinkState :=
  { ls with
    enabled := false, rx := .hunt, latch := none, queue := [], errors := 0, quarantined := false, tx := ls.droppedTx wire,
    oldParity := none, skipping := false }

/-- The effect of DISABLE_LINK on its target (R21): link and monitor, the active source (R49), and a restart awaited on the
link, which does not take place (R38). -/
def disableEffect (t : Link) (wire : WireIn) (s : State) : State :=
  let s1 := s.setLink t ((s.link t).disabled wire)
  let s2 := s1.setMonitor t (freshMonitor .down)
  let s3 := s2.withTimebase { s2.timebase with active := if s2.timebase.active = some t then none else s2.timebase.active }
  noteLimited s
    (s3.withExecutor
      { s3.executor with
        restartPending := if s3.executor.restartPending = some t then none else s3.executor.restartPending })

/-- DISABLE_LINK's cases (R21); a target code that names no link is refused with RANGE (log 16). -/
def disableLinkAnswer (wire : WireIn) (rq : Request) (s : State) : Answer :=
  match linkOf (rq.arg 0) with
  | none => refuse .range s
  | some t =>
    if t = rq.src then refuse .state s
    else if rq.src ≠ s.executor.privileged then refuse .permission s
    else carriedOut false (if (s.link t).enabled then disableEffect t wire s else s)

/-- DISABLE_LINK (R21). -/
def execDisableLink (src : LinkAndWire) (s : State) : Out :=
  .next (takeNamed 0x03 (lengthChecked 1 (disableLinkAnswer src.wire)) src.link s)

/-- The effect of ENABLE_LINK on a DISABLED target (R22, R43): characters are taken from the next start bit on, so one under way
is not. -/
def enableEffect (t : Link) (wire : WireIn) (s : State) : State :=
  (s.setLink t { s.link t with enabled := true, rx := .hunt, skipping := wire.underWay }).setMonitor t (freshMonitor .hunting)

/-- ENABLE_LINK's cases (R22); a target code that names no link is refused with RANGE (log 16). -/
def enableLinkAnswer (wire : WireIn) (rq : Request) (s : State) : Answer :=
  match linkOf (rq.arg 0) with
  | none => refuse .range s
  | some t =>
    if t = rq.src then carriedOut false s
    else if rq.src ≠ s.executor.privileged then refuse .permission s
    else carriedOut false (if (s.link t).enabled then s else enableEffect t wire s)

/-- ENABLE_LINK (R22). -/
def execEnableLink (src : LinkAndWire) (s : State) : Out :=
  .next (takeNamed 0x04 (lengthChecked 1 (enableLinkAnswer src.wire)) src.link s)

/-- The classes there are, bits 0 to 11 (12.6); other bits of a set are ignored (log 17). -/
def classMask : BitVec 16 := 0x0FFF

/-- A class set of two argument bytes at i. -/
def Request.classSet (rq : Request) (i : Nat) : BitVec 16 := BitVec.ofNat 16 (rq.num2 i) &&& classMask

/-- The data of a SET_PERMISSIONS reply: the map in force and the privileged link (R33, 12.6). -/
def permissionData (s : State) : List Byte :=
  be2 s.executor.permissions.toNat ++ [byteOf (Link.code s.executor.privileged)]

/-- SET_PERMISSIONS (R33). -/
def setPermissionsAnswer (rq : Request) (s : State) : Answer :=
  let grant := rq.classSet 0
  let revoke := rq.classSet 2
  if rq.src = s.executor.privileged then
    if grant &&& revoke ≠ 0 then refuse .state s
    else if hasBit (grant ||| revoke) PermClass.permissions.bit then refuse .range s
    else
      let s1 := s.withExecutor { s.executor with permissions := (s.executor.permissions ||| grant) &&& ~~~revoke }
      { outcome := .done, data := permissionData s1, state := s1 }
  else if grant = 0 ∧ revoke = 0 then { outcome := .done, data := permissionData s, state := s }
  else refuse .permission s

/-- SET_PERMISSIONS (R33). -/
def execSetPermissions (src : Link) (s : State) : Out :=
  .next (takeNamed 0x05 (lengthChecked 4 setPermissionsAnswer) src s)

/-- SOFT_RESTART's own checks and effect (R37). The restart itself comes with the reply's last stop bit (R38). -/
def softRestartAnswer (rq : Request) (s : State) : Answer :=
  if s.executor.restartPending.isSome then refuse .pending s
  else if s.carrier.state ≠ .off then refuse .state s
  else if !rq.wantsReply then refuse .state s
  else carriedOut false (s.withExecutor { s.executor with restartPending := some rq.src })

/-- SOFT_RESTART (R37). -/
def execSoftRestart (src : Link) (s : State) : Out :=
  .next (takeNamed 0x06 (checked 0 .restart softRestartAnswer) src s)

/-- UNKNOWN_REQUEST (R27 checks 1 and 2). -/
def execUnknownRequest (src : Link) (s : State) : Out := .next (takeUnknown src s)

end Sys2Proof.Machine
end

