-- ==== Sys2Proof/Machine/RequestsControl.lean ====
section
/-! DEFINITION. The request CONTROL (R34) and its six rows: the carrier part ON and OFF, the code part ON and OFF, the
profile-select part and the spare part (R125, R149, R166 to R169). A CONTROL is one request, taken whole; a row's command takes
it when the request gives that row's part (log 4). -/

namespace Sys2Proof.Machine

/-- The name code of CONTROL (12.7). -/
def controlCode : Byte := 0x07

/-- Whether a part of CONTROL is given: bits 0 to 3 of the presence byte (12.7). -/
def Request.gives (rq : Request) (part : Nat) : Bool := (rq.arg 0).getLsbD part

/-- Whether a part of CONTROL is kept: given, and its class not refused to the source link (R34). -/
def keptPart (rq : Request) (s : State) (part : Nat) (c : PermClass) : Bool := rq.gives part && permitted s rq.src c

/-- The carrier part (R34, R166, R167); a code that is neither OFF nor ON is refused with RANGE (log 15). -/
def carrierPart (b : Byte) (s : State) : Except Reason State :=
  match boolOf b with
  | some true => carrierOn s
  | some false => .ok (carrierOff s)
  | none => .error .range

/-- The code part (R34, R168, R169); a code that is neither OFF nor ON is refused with RANGE (log 15). -/
def codePart (b : Byte) (s : State) : Except Reason State :=
  match boolOf b with
  | some true => codeOn s
  | some false => .ok (codeOff s)
  | none => .error .range

/-- The profile-select part, clamped to 3 (R149). -/
def profilePart (n : Nat) (s : State) : State := s.withAssembler { s.assembler with selection := profileOf n }

/-- The spare part: the masked bits of the spare byte take the value's (R125). -/
def sparePart (value mask : Byte) (s : State) : State :=
  s.withAssembler { s.assembler with spare := (s.assembler.spare &&& ~~~mask) ||| (value &&& mask) }

/-- CONTROL (R34): each part kept is checked and applied on the state the parts before it leave; a refused part refuses the
whole request. -/
def controlAnswer (rq : Request) (s : State) : Answer :=
  if rq.args.length ≠ 6 then refuse .length s
  else
    match (if keptPart rq s 0 .carrier then carrierPart (rq.arg 1) s else .ok s) with
    | .error r => refuse r s
    | .ok s1 =>
      match (if keptPart rq s 1 .code then codePart (rq.arg 2) s1 else .ok s1) with
      | .error r => refuse r s
      | .ok s2 =>
        let s3 := if keptPart rq s 2 .profiles then profilePart (rq.num 3) s2 else s2
        let s4 := if keptPart rq s 3 .spare then sparePart (rq.arg 4) (rq.arg 5) s3 else s3
        carriedOut (keptPart rq s 2 .profiles && decide (3 < rq.num 3)) s4

/-- The request gives the carrier part with this code. -/
def givesCarrier (on : Bool) (rq : Request) : Bool :=
  rq.args.length == 6 && rq.gives 0 && boolOf (rq.arg 1) == some on

/-- The request gives the code part with this code. -/
def givesCode (on : Bool) (rq : Request) : Bool :=
  rq.args.length == 6 && rq.gives 1 && boolOf (rq.arg 2) == some on

/-- The request gives the profile-select part. -/
def givesProfile (rq : Request) : Bool := rq.args.length == 6 && rq.gives 2

/-- The request gives the spare part. -/
def givesSpare (rq : Request) : Bool := rq.args.length == 6 && rq.gives 3

/-- A CONTROL that none of the six rows describes: without a part, with no valid carrier or code code, or of a wrong length. Any
of the six commands takes it (log 4). -/
def givesNoRow (rq : Request) : Bool :=
  !(givesCarrier true rq || givesCarrier false rq || givesCode true rq || givesCode false rq || givesProfile rq
    || givesSpare rq)

/-- The take of a CONTROL that a row describes, or that no row does (R34, log 4). -/
def takeControl (row : Request → Bool) (src : Link) (s : State) : State :=
  match takenRequest controlCode src s with
  | some rq => if row rq || givesNoRow rq then finishTake rq (controlAnswer rq (popTaken src s)) else s
  | none => s

/-- CONTROL_CARRIER_ON (R166). -/
def execControlCarrierOn (src : Link) (s : State) : Out := .next (takeControl (givesCarrier true) src s)

/-- CONTROL_CARRIER_OFF (R167). -/
def execControlCarrierOff (src : Link) (s : State) : Out := .next (takeControl (givesCarrier false) src s)

/-- CONTROL_CODE_ON (R168). -/
def execControlCodeOn (src : Link) (s : State) : Out := .next (takeControl (givesCode true) src s)

/-- CONTROL_CODE_OFF (R169). -/
def execControlCodeOff (src : Link) (s : State) : Out := .next (takeControl (givesCode false) src s)

/-- CONTROL_PROFILE_SELECT (R149). -/
def execControlProfileSelect (src : Link) (s : State) : Out := .next (takeControl givesProfile src s)

/-- CONTROL_SPARE (R125). -/
def execControlSpare (src : Link) (s : State) : Out := .next (takeControl givesSpare src s)

end Sys2Proof.Machine
end

