-- ==== Sys2Proof/Machine/RequestsTimebase.lean ====
section
/-! DEFINITION. The requests on the timebase, the time scale unit and the civil state: SET_TIMEBASE, SET_BALANCE, SET_CIVIL,
SET_WINDOWS (R59, R60, R62, R87, R89). -/

namespace Sys2Proof.Machine

/-- The timebase settings as SET_TIMEBASE gives them; none when a choice code is no stated choice (R59). -/
def Request.timebaseSettings (rq : Request) : Option TimebaseSettings :=
  match linkOf (rq.arg 2), boolOf (rq.arg 3), boolOf (rq.arg 4) with
  | some preferred, some revertive, some accept =>
    some { window := rq.num 0, qualify := rq.num 1, preferred := preferred, revertive := revertive,
           acceptDegraded := accept, warn := rq.num2 5, limit := rq.num2 7 }
  | _, _, _ => none

/-- The numeric settings of the timebase clamped (R59). The warn time fills its two bytes, so every value is in range. -/
def TimebaseSettings.clamped (w : TimebaseSettings) : TimebaseSettings :=
  { w with window := clamp 1 10 w.window, qualify := clamp 2 60 w.qualify, limit := clamp 1 10080 w.limit }

/-- SET_TIMEBASE's own checks and effect (R59); warned and limited are judged anew at the take (R57, R60). -/
def setTimebaseAnswer (rq : Request) (s : State) : Answer :=
  match rq.timebaseSettings with
  | none => refuse .range s
  | some given =>
    carriedOut (given.clamped != given)
      (noteLimited s (s.withTimebase { s.timebase with settings := given.clamped }))

/-- SET_TIMEBASE (R59). -/
def execSetTimebase (src : Link) (s : State) : Out :=
  .next (takeNamed 0x08 (checked 9 .timebase setTimebaseAnswer) src s)

/-- Whether a balance lies in -32 to +127 (R62). -/
def balanceInRange (x : Int) : Bool := decide (-32 ≤ x) && decide (x ≤ 127)

/-- SET_BALANCE's own checks and effect (R62). -/
def setBalanceAnswer (rq : Request) (s : State) : Answer :=
  if s.carrier.code ≠ .off then refuse .state s
  else if !balanceInRange (rq.signed 0) then refuse .range s
  else if !sumsInRange (rq.signed 0) s.rules.leaps then refuse .range s
  else carriedOut false (s.withTimeScale { s.timeScale with pendingBalance := some (rq.signed 0) })

/-- SET_BALANCE (R62). -/
def execSetBalance (src : Link) (s : State) : Out := .next (takeNamed 0x09 (checked 1 .rules setBalanceAnswer) src s)

/-- Whether a civil offset lies in -48 to +56 quarter-hours (R78). -/
def offsetInRange (o : Int) : Bool := decide (-48 ≤ o) && decide (o ≤ 56)

/-- SET_CIVIL's own checks and effect (R87). -/
def setCivilAnswer (rq : Request) (s : State) : Answer :=
  if s.carrier.code ≠ .off then refuse .state s
  else if !offsetInRange (rq.signed 0) then refuse .range s
  else
    match boolOf (rq.arg 1) with
    | none => refuse .range s
    | some summer => carriedOut false (s.withRules { s.rules with offset := rq.signed 0, summer := summer })

/-- SET_CIVIL (R87). -/
def execSetCivil (src : Link) (s : State) : Out := .next (takeNamed 0x0A (checked 2 .rules setCivilAnswer) src s)

/-- SET_WINDOWS's effect (R89). -/
def setWindowsAnswer (rq : Request) (s : State) : Answer :=
  let leap := clamp 1 1440 (rq.num2 0)
  let change := clamp 1 1440 (rq.num2 2)
  carriedOut (leap != rq.num2 0 || change != rq.num2 2)
    (s.withRules { s.rules with leapWindow := leap, changeWindow := change })

/-- SET_WINDOWS (R89). -/
def execSetWindows (src : Link) (s : State) : Out := .next (takeNamed 0x0B (checked 4 .rules setWindowsAnswer) src s)

end Sys2Proof.Machine
end

