-- ==== Sys2Proof/Machine/RequestsLists.lean ====
section
/-! DEFINITION. The requests on the leap list and the transition list: ADD_LEAP, DELETE_LEAP, ADD_TRANSITION,
DELETE_TRANSITION (R79 to R85). -/

namespace Sys2Proof.Machine

/-- The leap entry that ADD_LEAP names; none for a day outside the span or an unknown kind code (R81 check 1). -/
def Request.leapEntry (rq : Request) : Option LeapEntry :=
  if Config.lastDay < rq.num2 0 then none
  else (boolOf (rq.arg 2)).map fun delete => { day := rq.num2 0, insert := !delete }

/-- ADD_LEAP's own checks and effect (R81). -/
def addLeapAnswer (rq : Request) (s : State) : Answer :=
  match rq.leapEntry with
  | none => refuse .range s
  | some e =>
    if s.rules.leaps.any (·.day == e.day) then refuse .state s
    else if 4 ≤ s.rules.leaps.length then refuse .listFull s
    else if leapLate s e.leapMinute then refuse .late s
    else if !sumsInRange s.timeScale.sumBase (insertLeap e s.rules.leaps) then refuse .range s
    else carriedOut false (s.withRules { s.rules with leaps := insertLeap e s.rules.leaps })

/-- ADD_LEAP (R81). -/
def execAddLeap (src : Link) (s : State) : Out := .next (takeNamed 0x0C (checked 3 .rules addLeapAnswer) src s)

/-- The leap list without the entry of a day (R82). -/
def withoutDay (day : Nat) (leaps : List LeapEntry) : List LeapEntry := leaps.filter (fun e => e.day != day)

/-- DELETE_LEAP's own checks and effect (R82). -/
def deleteLeapAnswer (rq : Request) (s : State) : Answer :=
  let day := rq.num2 0
  match s.rules.leaps.find? (·.day == day) with
  | none => refuse .notFound s
  | some e =>
    if leapLate s e.leapMinute then refuse .late s
    else if !sumsInRange s.timeScale.sumBase (withoutDay day s.rules.leaps) then refuse .range s
    else carriedOut false (s.withRules { s.rules with leaps := withoutDay day s.rules.leaps })

/-- DELETE_LEAP (R82). -/
def execDeleteLeap (src : Link) (s : State) : Out :=
  .next (takeNamed 0x0D (checked 2 .rules deleteLeapAnswer) src s)

/-- The transition entry that ADD_TRANSITION names; none for a minute, offset or summer code out of range (R84 check 1). -/
def Request.transition (rq : Request) : Option Transition :=
  if Config.lastMinute < rq.num4 0 ∨ offsetInRange (rq.signed 4) = false then none
  else (boolOf (rq.arg 5)).map fun summer => { minute := rq.num4 0, offset := rq.signed 4, summer := summer }

/-- ADD_TRANSITION's own checks and effect (R84). -/
def addTransitionAnswer (rq : Request) (s : State) : Answer :=
  match rq.transition with
  | none => refuse .range s
  | some e =>
    if transitionLate s e.minute then refuse .late s
    else if !s.rules.transitions.any (·.minute == e.minute) && decide (16 ≤ s.rules.transitions.length) then
      refuse .listFull s
    else carriedOut false (s.withRules { s.rules with transitions := putTransition e s.rules.transitions })

/-- ADD_TRANSITION (R84). -/
def execAddTransition (src : Link) (s : State) : Out :=
  .next (takeNamed 0x0E (checked 6 .rules addTransitionAnswer) src s)

/-- The transition list without the entry at a minute (R85). -/
def withoutMinute (minute : Nat) (ts : List Transition) : List Transition := ts.filter (fun e => e.minute != minute)

/-- DELETE_TRANSITION's own checks and effect (R85). -/
def deleteTransitionAnswer (rq : Request) (s : State) : Answer :=
  let minute := rq.num4 0
  if !s.rules.transitions.any (·.minute == minute) then refuse .notFound s
  else if transitionLate s minute then refuse .late s
  else carriedOut false (s.withRules { s.rules with transitions := withoutMinute minute s.rules.transitions })

/-- DELETE_TRANSITION (R85). -/
def execDeleteTransition (src : Link) (s : State) : Out :=
  .next (takeNamed 0x0F (checked 4 .rules deleteTransitionAnswer) src s)

end Sys2Proof.Machine
end

