-- ==== Sys2Proof/Machine/RequestsMaps.lean ====
section
/-! DEFINITION. The requests on the map banks: WRITE_MAP, COPY_MAP, COMMIT_MAP, CANCEL_COMMIT, READ_MAP (R104 to R109). -/

namespace Sys2Proof.Machine

/-- WRITE_MAP's own checks and effect (R104). -/
def writeMapOwn (rq : Request) (s : State) : Answer :=
  let start := rq.num 0
  let count := rq.num 1
  if s.assembler.commitPending then refuse .pending s
  else if count = 0 ∨ 61 < start + count then refuse .range s
  else
    match entriesOf (rq.args.drop 2) with
    | none => refuse .range s
    | some es =>
      carriedOut false
        (s.withAssembler (s.assembler.setShadow (writeEntries s.assembler.shadowBank start es)))

/-- WRITE_MAP's length check, then its class and its own checks (R27 check 3, R104): two bytes and four for each of the n
entries. -/
def writeMapAnswer (rq : Request) (s : State) : Answer :=
  if rq.args.length ≠ 2 + 4 * rq.num 1 then refuse .length s
  else if !permitted s rq.src .maps then refuse .permission s
  else writeMapOwn rq s

/-- WRITE_MAP (R104). -/
def execWriteMap (src : Link) (s : State) : Out := .next (takeNamed 0x10 writeMapAnswer src s)

/-- COPY_MAP's own check and effect (R105). -/
def copyMapAnswer (_ : Request) (s : State) : Answer :=
  if s.assembler.commitPending then refuse .pending s
  else carriedOut false (s.withAssembler (s.assembler.setShadow s.assembler.activeBank))

/-- COPY_MAP (R105). -/
def execCopyMap (src : Link) (s : State) : Out := .next (takeNamed 0x11 (checked 0 .maps copyMapAnswer) src s)

/-- COMMIT_MAP's own checks and effect (R107, R108). -/
def commitMapAnswer (_ : Request) (s : State) : Answer :=
  if s.assembler.commitPending then refuse .pending s
  else
    match firstFailingCheck s.assembler.shadowBank with
    | some n => refuse (.validation n) s
    | none => carriedOut false (s.withAssembler { s.assembler with commitPending := true })

/-- COMMIT_MAP (R108). -/
def execCommitMap (src : Link) (s : State) : Out := .next (takeNamed 0x12 (checked 0 .maps commitMapAnswer) src s)

/-- CANCEL_COMMIT's own check and effect (R109). -/
def cancelCommitAnswer (_ : Request) (s : State) : Answer :=
  if s.assembler.commitPending then
    carriedOut false (s.withAssembler { s.assembler with commitPending := false })
  else refuse .notFound s

/-- CANCEL_COMMIT (R109). -/
def execCancelCommit (src : Link) (s : State) : Out :=
  .next (takeNamed 0x13 (checked 0 .maps cancelCommitAnswer) src s)

/-- The bank that a selector names at the take: true for bank 1; none for an unknown code (R106). -/
def bankSelected (selector : Byte) (a : Assembler) : Option Bool :=
  if selector = 0 then some false
  else if selector = 1 then some true
  else if selector = 2 then some a.active1
  else if selector = 3 then some (!a.active1)
  else none

/-- READ_MAP's own checks and answer (R35, R106). -/
def readMapAnswer (rq : Request) (s : State) : Answer :=
  match bankSelected (rq.arg 2) s.assembler with
  | none => refuse .range s
  | some bank1 => readOn rq (mapImage s.assembler bank1) s

/-- READ_MAP (R106). -/
def execReadMap (src : Link) (s : State) : Out := .next (takeNamed 0x20 (lengthChecked 3 readMapAnswer) src s)

end Sys2Proof.Machine
end

