-- ==== Sys2Proof/Machine/RequestsOverrides.lean ====
section
/-! DEFINITION. The requests on the test record and the override stack: WRITE_TEST, PUSH_OVERRIDE, POP_OVERRIDE,
REMOVE_OVERRIDE, READ_STACK (R124, R135 to R139). -/

namespace Sys2Proof.Machine

/-- WRITE_TEST's own checks and effect (R124). -/
def writeTestOwn (rq : Request) (s : State) : Answer :=
  match symbolsOf (rq.args.drop 1) with
  | none => refuse .range s
  | some record =>
    match (if hasTestEntry s.stack then testRecordFault record else none) with
    | some n => refuse (.validation n) s
    | none => carriedOut false (s.withAssembler { s.assembler with test := record })

/-- WRITE_TEST's length check, then its class and its own checks: 61 bytes, and a count of 60 (R27, R124, R194). -/
def writeTestAnswer (rq : Request) (s : State) : Answer :=
  if rq.args.length ≠ 61 ∨ rq.num 0 ≠ 60 then refuse .length s
  else if !permitted s rq.src .overrides then refuse .permission s
  else writeTestOwn rq s

/-- WRITE_TEST (R124). -/
def execWriteTest (src : Link) (s : State) : Out := .next (takeNamed 0x14 writeTestAnswer src s)

/-- The remaining minutes that PUSH_OVERRIDE gives, clamped; absent when its presence flag is clear (R135 check 2). -/
def Request.overrideMinutes (rq : Request) (present : Bool) : Option Nat :=
  if present then some (clamp 1 1440 (rq.num2 4)) else none

/-- Whether PUSH_OVERRIDE clamps a profile or the minutes (R135 check 2). -/
def Request.overrideClamped (rq : Request) (present : Bool) : Bool :=
  (rq.arg 0 == 1 && decide (3 < rq.num 1)) || (present && clamp 1 1440 (rq.num2 4) != rq.num2 4)

/-- PUSH_OVERRIDE's own checks and effect (R135, R136). A presence code other than 0 or 1 is refused with RANGE (log 14). -/
def pushOverrideAnswer (rq : Request) (s : State) : Answer :=
  match overrideValueOf (rq.arg 0) (rq.arg 1) (rq.arg 2), boolOf (rq.arg 3) with
  | some value, some present =>
    if 4 ≤ s.stack.length then refuse .stackFull s
    else
      match (if value = .content true then testRecordFault s.assembler.test else none) with
      | some n => refuse (.validation n) s
      | none =>
        carriedOut (rq.overrideClamped present)
          (s.withStack
            ({ value := value, remaining := rq.overrideMinutes present, link := rq.src, mark := false } :: s.stack))
  | _, _ => refuse .range s

/-- PUSH_OVERRIDE (R135). -/
def execPushOverride (src : Link) (s : State) : Out :=
  .next (takeNamed 0x15 (checked 6 .overrides pushOverrideAnswer) src s)

/-- POP_OVERRIDE's own check and effect (R137). -/
def popOverrideAnswer (_ : Request) (s : State) : Answer :=
  match s.stack with
  | [] => refuse .stackEmpty s
  | _ :: rest => carriedOut false (s.withStack rest)

/-- POP_OVERRIDE (R137). -/
def execPopOverride (src : Link) (s : State) : Out :=
  .next (takeNamed 0x16 (checked 0 .overrides popOverrideAnswer) src s)

/-- REMOVE_OVERRIDE's own checks and effect (R138). -/
def removeOverrideAnswer (rq : Request) (s : State) : Answer :=
  if 3 < rq.num 0 then refuse .range s
  else if s.stack.length ≤ rq.num 0 then refuse .notFound s
  else carriedOut false (s.withStack (s.stack.eraseIdx (rq.num 0)))

/-- REMOVE_OVERRIDE (R138). -/
def execRemoveOverride (src : Link) (s : State) : Out :=
  .next (takeNamed 0x17 (checked 1 .overrides removeOverrideAnswer) src s)

/-- READ_STACK's answer (R35, R139). -/
def readStackAnswer (rq : Request) (s : State) : Answer := readOn rq (stackImage s.stack) s

/-- READ_STACK (R139). -/
def execReadStack (src : Link) (s : State) : Out := .next (takeNamed 0x23 (lengthChecked 2 readStackAnswer) src s)

end Sys2Proof.Machine
end

