-- ==== Sys2Proof/Machine/RequestsKeying.lean ====
section
/-! DEFINITION. The requests on profiles, the ramp length and the assembly slot: WRITE_PROFILE, SET_RAMP, SET_ASSEMBLY_SLOT,
READ_PROFILE (R114, R147, R148, R164). -/

namespace Sys2Proof.Machine

/-- WRITE_PROFILE's own checks and effect (R147). -/
def writeProfileAnswer (rq : Request) (s : State) : Answer :=
  if 3 < rq.num 0 then refuse .range s
  else
    let p := clampProfile rq.profile
    match profileFault p with
    | some n => refuse (.validation n) s
    | none =>
      carriedOut (p != rq.profile)
        (s.withKeying { s.keying with profiles := s.keying.profiles.set (profileOf (rq.num 0)) p })

/-- WRITE_PROFILE (R147). -/
def execWriteProfile (src : Link) (s : State) : Out :=
  .next (takeNamed 0x18 (checked 21 .profiles writeProfileAnswer) src s)

/-- SET_RAMP's effect (R164). -/
def setRampAnswer (rq : Request) (s : State) : Answer :=
  let v := clamp 100 10000 (rq.num2 0)
  carriedOut (v != rq.num2 0) (s.withCarrier { s.carrier with rampSetting := v })

/-- SET_RAMP (R164). -/
def execSetRamp (src : Link) (s : State) : Out := .next (takeNamed 0x19 (checked 2 .carrier setRampAnswer) src s)

/-- SET_ASSEMBLY_SLOT's effect (R114). -/
def setAssemblySlotAnswer (rq : Request) (s : State) : Answer :=
  let v := clamp 30 57 (rq.num 0)
  carriedOut (v != rq.num 0) (s.withAssembler { s.assembler with slotSetting := v })

/-- SET_ASSEMBLY_SLOT (R114). -/
def execSetAssemblySlot (src : Link) (s : State) : Out :=
  .next (takeNamed 0x1A (checked 1 .code setAssemblySlotAnswer) src s)

/-- READ_PROFILE's own checks and answer (R35, R148). -/
def readProfileAnswer (rq : Request) (s : State) : Answer :=
  if 3 < rq.num 2 then refuse .range s
  else readOn rq (profileImage s.keying s.assembler.selection (profileOf (rq.num 2))) s

/-- READ_PROFILE (R148). -/
def execReadProfile (src : Link) (s : State) : Out :=
  .next (takeNamed 0x21 (lengthChecked 3 readProfileAnswer) src s)

end Sys2Proof.Machine
end

