-- ==== Sys2Proof/Machine/RequestsLines.lean ====
section
/-! DEFINITION. WRITE_LINES and the remaining reads: READ_LISTS, READ_WORD, READ_LINES, READ_STATUS (R86, R132, R186, R187,
R191, R192). -/

namespace Sys2Proof.Machine

/-- The line settings that WRITE_LINES carries for a line, with the filter time clamped; none for an enable set that names a
function the line does not have, or an unknown code (R186 checks 1 to 3). -/
def Request.lineSettings (rq : Request) (n : LineId) : Option LineSettings :=
  if 2 ^ (functionsOf n).length ≤ rq.num 1 then none
  else
    match boolOf (rq.arg 2), boolOf (rq.arg 3), boolOf (rq.arg 4), pullOf (rq.arg 5), edgeOf (rq.arg 6) with
    | some dirOut, some level, some invert, some pull, some edge =>
      some { enables := rq.arg 1, dirOut := dirOut, level := level, invert := invert, pull := pull, edge := edge,
             filter := clamp 0 15 (rq.num 7) }
    | _, _, _, _, _ => none

/-- WRITE_LINES with target STROBES (R186). -/
def writeStrobes (rq : Request) (s : State) : Answer :=
  let width := clamp 1 500 (rq.num2 1)
  let slot := clamp 0 60 (rq.num 3)
  carriedOut (width != rq.num2 1 || slot != rq.num 3)
    (s.withLineUnit { s.lineUnit with strobeWidth := width, strobeSlot := slot })

/-- WRITE_LINES's own checks and effect (R186), with the levels found on the pins. -/
def writeLinesAnswer (pins : PinIn) (rq : Request) (s : State) : Answer :=
  match lineOf (rq.arg 0) with
  | some n =>
    match rq.lineSettings n with
    | none => refuse .range s
    | some w => carriedOut (decide (15 < rq.num 7)) (applyLineSettings n w pins s)
  | none => if rq.arg 0 = 0x08 then writeStrobes rq s else refuse .range s

/-- WRITE_LINES (R186). -/
def execWriteLines (src : Link) (pins : PinIn) (s : State) : Out :=
  .next (takeNamed 0x1B (checked 8 .lines (writeLinesAnswer pins)) src s)

/-- READ_LISTS's answer (R35, R86). -/
def readListsAnswer (rq : Request) (s : State) : Answer := readOn rq (listsImage s.rules) s

/-- READ_LISTS (R86). -/
def execReadLists (src : Link) (s : State) : Out := .next (takeNamed 0x22 (lengthChecked 2 readListsAnswer) src s)

/-- READ_WORD's answer (R35, R132). -/
def readWordAnswer (rq : Request) (s : State) : Answer := readOn rq (wordImage s.assembler) s

/-- READ_WORD (R132). -/
def execReadWord (src : Link) (s : State) : Out := .next (takeNamed 0x24 (lengthChecked 2 readWordAnswer) src s)

/-- READ_LINES's answer (R35, R187). -/
def readLinesAnswer (rq : Request) (s : State) : Answer := readOn rq (linesImage s) s

/-- READ_LINES (R187). -/
def execReadLines (src : Link) (s : State) : Out := .next (takeNamed 0x25 (lengthChecked 2 readLinesAnswer) src s)

/-- The clear option of READ_STATUS: counters, event flags, edge-event flags and the halt latch (R174, R192). -/
def clearStatus (s : State) : State :=
  ((s.withStatus clearedStatus).withLineUnit
    { s.lineUnit with lines := PerLine.build (fun n => { s.line n with edgeFlag := false }) }).withCarrier
    { s.carrier with haltLatch := false }

/-- The read half of READ_STATUS (R35, R191): with a reply wanted the record is captured, and a free value stands for the
pending-balance byte while none is pending (log 13). -/
def captureStatus (rq : Request) (s : State) : Answer :=
  readOn rq (statusRecord s (Config.absentPendingBalance s.freeDraws))
    (if rq.wantsReply then s.withFreeDraws (s.freeDraws + 1) else s)

/-- READ_STATUS's own checks and effect (R191, R192): the clear option acts after the capture. -/
def readStatusAnswer (rq : Request) (s : State) : Answer :=
  match boolOf (rq.arg 2) with
  | none => refuse .range s
  | some clear =>
    if 64 < rq.num2 0 then refuse .range s
    else
      let an := captureStatus rq s
      { an with state := if clear then clearStatus an.state else an.state }

/-- READ_STATUS (R191). -/
def execReadStatus (src : Link) (s : State) : Out :=
  .next (takeNamed readStatusCode (lengthChecked 3 readStatusAnswer) src s)

end Sys2Proof.Machine
end

