-- ==== Sys2Proof/Machine/Events.lean ====
section
/-! DEFINITION. The keying step and the events that fall in one: KEYING_STEP, RISING_COMPLETE, FALLING_COMPLETE, FLYWHEEL_WRAP,
ASSEMBLY_COMPLETION, PULSE, MISSING_SECOND, LINE_FILTER_CHANGE, STROBE_END (R40 to R45, R117, R151 to R155, R165, R178,
R181). -/

namespace Sys2Proof.Machine

/-- A pulse on the routed L6: a rising edge that the line unit has handed over (R42, R184, log 27). -/
def takeL6Pulse (s : State) : State :=
  if s.lineUnit.l6Pulse then takePulse .b (s.withLineUnit { s.lineUnit with l6Pulse := false }) else s

/-- The boundary of the present keying step is formed: a later pulse waits for the next step (R42, log 41). -/
def sealStep (s : State) : State := s.withTimebase { s.timebase with formed := .atWrap }

/-- The wrap of the present keying step and what is left of the pulses of that step, as one event (R42): a pulse on the routed L6
is judged first, and then the step's single boundary is formed, unless a pulse has formed it. -/
def formWrap (s : State) : State :=
  sealStep (takeWrap (takeL6Pulse (if routedL6 s then takeFilterChange .l6 s else s)))

/-- The filter changes of the present step that are not taken yet, L0 first. -/
def takeFilterChanges (s : State) : State := allLines.foldl (fun s n => takeFilterChange n s) s

/-- Everything that falls in the present keying step and is not taken yet (log 5). -/
def closeStep (s : State) : State :=
  let s0 := takeFilterChanges s
  let s1 := if s0.timebase.wrapDue then formWrap s0 else takeL6Pulse s0
  let s2 := takeMissing .b (takeMissing .a s1)
  completeFalling (completeRising (endStrobe .second (endStrobe .slot (endStrobe .minute s2))))

/-- Carrier control at a keying step: k moves, and the amplitude it gives for the step is held (R155, R165). -/
def carrierStep (s : State) : State :=
  let s1 := s.withCarrier s.carrier.tick
  s1.withKeying { s1.keying with stepAmp := s1.carrier.amplitude }

/-- The keying generator at a keying step: the next sample of the slot (R151, R152). At a wrap the boundary forms the sample
(R150). -/
def keyingAdvance (s : State) : State :=
  if s.timebase.wrapDue then s else formSample false false (s.withKeying { s.keying with j := s.keying.j + 1 })

/-- A new keying step: the flywheel and the pulse timers, the filters and the strobe timers, carrier control, the sample (R40,
R45, R153, R165, R178, R181). -/
def openStep (pins : PinIn) (s : State) : State :=
  keyingAdvance (carrierStep (lineStep pins (s.withTimebase s.timebase.tick)))

/-- KEYING_STEP (R40): the step before it ends, with what fell in it, and the next one begins, with the pulses that came too late
for the step before (log 41). -/
def execKeyingStep (pins : PinIn) (s : State) : Out :=
  .next (takeWaiting .b (takeWaiting .a (openStep pins (closeStep s))))

/-- RISING_COMPLETE (R165), at the end of its step, after the step's boundary (R170). When no rise ends here nothing happens
(log 1). -/
def execRisingComplete (s : State) : Out := .next (if s.timebase.wrapDue then s else completeRising s)

/-- FALLING_COMPLETE (R165), at the end of its step, after the step's boundary. When no fall ends here nothing happens (log
1). -/
def execFallingComplete (s : State) : Out := .next (if s.timebase.wrapDue then s else completeFalling s)

/-- FLYWHEEL_WRAP (R41, R42): the boundary of the step at which m passed from 999 to 0, after a pulse that waits on the routed
L6. At any other time no wrap is due (log 1). -/
def execFlywheelWrap (s : State) : Out := .next (if s.timebase.wrapDue then formWrap s else s)

/-- ASSEMBLY_COMPLETION (R117). With no assembly in progress nothing happens (log 1). -/
def execAssemblyCompletion (s : State) : Out := .next (completeAssembly s)

/-- The source of which an edge on an input is a pulse (R42, R184): none for PPS_B while L6 is routed, for L6 when the line unit
has handed no edge over (log 27), and while the source's link is DISABLED. -/
def pulseSource (i : PulseInput) (s : State) : Option Link :=
  let source : Option Link := match i with
    | .ppsA => some .a
    | .ppsB => if routedL6 s then none else some .b
    | .lineL6 => if s.lineUnit.l6Pulse then some .b else none
  source.filter fun x => (s.monitor x).state != .down

/-- An edge on a pulse input (R42, R184). -/
def takeEdge (i : PulseInput) (s : State) : State :=
  match i with
  | .ppsA => takePulse .a s
  | .ppsB => if routedL6 s then s else takePulse .b s
  | .lineL6 => takeL6Pulse s

/-- PULSE (R42, R184): the edge, then the one on the other input in the same keying step if there is one; and when one of them
is a pulse in the step of a wrap, that step's single boundary in the same event. -/
def execPulse (i : PulseEdges) (s : State) : Out :=
  let s1 := takeEdge i.input s
  let s2 := match i.also with
    | some k => takeEdge k s1
    | none => s1
  let anyPulse := (pulseSource i.input s).isSome || i.also.any fun k => (pulseSource k s1).isSome
  .next (if s.timebase.wrapDue && anyPulse then formWrap s2 else s2)

/-- MISSING_SECOND (R45). When no expiry of the source falls in the present step nothing happens (log 1). -/
def execMissingSecond (x : Link) (s : State) : Out := .next (takeMissing x s)

/-- LINE_FILTER_CHANGE (R178). When no change of the line falls in the present step nothing happens (log 1). -/
def execLineFilterChange (n : LineId) (s : State) : Out := .next (takeFilterChange n s)

/-- STROBE_END (R181). When the strobe's timer has not run out nothing happens (log 1). -/
def execStrobeEnd (k : Strobe) (s : State) : Out := .next (endStrobe k s)

end Sys2Proof.Machine
end

