-- ==== Sys2Proof/Machine/Dispatch.lean ====
section
/-! DEFINITION. The dispatch: one arm per command, each a direct call of its meaning. -/

namespace Sys2Proof.Machine

/-- The effect of a command on everything but the queue of commands. -/
def exec (i : Instr) (s : State) : Host.Outcome State Fault Refusal :=
  match i with
  | .powerOnReset pins => Sys2Proof.Machine.execPowerOnReset pins s
  | .byteReceived l c => Sys2Proof.Machine.execByteReceived l c s
  | .characterFault l c => Sys2Proof.Machine.execCharacterFault l c s
  | .idle l => Sys2Proof.Machine.execIdle l s
  | .leadExpiry l => Sys2Proof.Machine.execLeadExpiry l s
  | .replyComplete l => Sys2Proof.Machine.execReplyComplete l s
  | .tailExpiry l => Sys2Proof.Machine.execTailExpiry l s
  | .setLink src => Sys2Proof.Machine.execSetLink src s
  | .setReturnLimit src => Sys2Proof.Machine.execSetReturnLimit src s
  | .disableLink src => Sys2Proof.Machine.execDisableLink src s
  | .enableLink src => Sys2Proof.Machine.execEnableLink src s
  | .setPermissions src => Sys2Proof.Machine.execSetPermissions src s
  | .softRestart src => Sys2Proof.Machine.execSoftRestart src s
  | .controlCarrierOn src => Sys2Proof.Machine.execControlCarrierOn src s
  | .controlCarrierOff src => Sys2Proof.Machine.execControlCarrierOff src s
  | .controlCodeOn src => Sys2Proof.Machine.execControlCodeOn src s
  | .controlCodeOff src => Sys2Proof.Machine.execControlCodeOff src s
  | .controlProfileSelect src => Sys2Proof.Machine.execControlProfileSelect src s
  | .controlSpare src => Sys2Proof.Machine.execControlSpare src s
  | .setTimebase src => Sys2Proof.Machine.execSetTimebase src s
  | .setBalance src => Sys2Proof.Machine.execSetBalance src s
  | .setCivil src => Sys2Proof.Machine.execSetCivil src s
  | .setWindows src => Sys2Proof.Machine.execSetWindows src s
  | .addLeap src => Sys2Proof.Machine.execAddLeap src s
  | .deleteLeap src => Sys2Proof.Machine.execDeleteLeap src s
  | .addTransition src => Sys2Proof.Machine.execAddTransition src s
  | .deleteTransition src => Sys2Proof.Machine.execDeleteTransition src s
  | .writeMap src => Sys2Proof.Machine.execWriteMap src s
  | .copyMap src => Sys2Proof.Machine.execCopyMap src s
  | .commitMap src => Sys2Proof.Machine.execCommitMap src s
  | .cancelCommit src => Sys2Proof.Machine.execCancelCommit src s
  | .writeTest src => Sys2Proof.Machine.execWriteTest src s
  | .pushOverride src => Sys2Proof.Machine.execPushOverride src s
  | .popOverride src => Sys2Proof.Machine.execPopOverride src s
  | .removeOverride src => Sys2Proof.Machine.execRemoveOverride src s
  | .writeProfile src => Sys2Proof.Machine.execWriteProfile src s
  | .setRamp src => Sys2Proof.Machine.execSetRamp src s
  | .setAssemblySlot src => Sys2Proof.Machine.execSetAssemblySlot src s
  | .writeLines src pins => Sys2Proof.Machine.execWriteLines src pins s
  | .readMap src => Sys2Proof.Machine.execReadMap src s
  | .readProfile src => Sys2Proof.Machine.execReadProfile src s
  | .readLists src => Sys2Proof.Machine.execReadLists src s
  | .readStack src => Sys2Proof.Machine.execReadStack src s
  | .readWord src => Sys2Proof.Machine.execReadWord src s
  | .readLines src => Sys2Proof.Machine.execReadLines src s
  | .readStatus src => Sys2Proof.Machine.execReadStatus src s
  | .unknownRequest src => Sys2Proof.Machine.execUnknownRequest src s
  | .keyingStep pins => Sys2Proof.Machine.execKeyingStep pins s
  | .risingComplete => Sys2Proof.Machine.execRisingComplete s
  | .fallingComplete => Sys2Proof.Machine.execFallingComplete s
  | .flywheelWrap => Sys2Proof.Machine.execFlywheelWrap s
  | .assemblyCompletion => Sys2Proof.Machine.execAssemblyCompletion s
  | .pulse input => Sys2Proof.Machine.execPulse input s
  | .missingSecond x => Sys2Proof.Machine.execMissingSecond x s
  | .lineFilterChange n => Sys2Proof.Machine.execLineFilterChange n s
  | .strobeEnd k => Sys2Proof.Machine.execStrobeEnd k s
  | .characterInProgressCompleted l => Sys2Proof.Machine.execCharacterInProgressCompleted l s

end Sys2Proof.Machine
end

