-- ==== Sys2Proof/Safety.lean ====
section
/-! DEFINITION. What the spec promises of every state the part passes through, as predicates that a state can be tested
against: one per group of blocks, each made of the promises of the rules named. The statements say that every step keeps them
and that the state after reset has them. -/

namespace Sys2Proof.Machine

/-! ### Reference links and source monitors (01, 03) -/

/-- The receive state holds no more than its frame (R4, R7, R8), and a complete frame has a good CRC. -/
def RxState.sound : RxState → Bool
  | .hunt => true
  | .header got => decide (got.length ≤ 3)
  | .payload h _ got =>
    decide (h.length.toNat ≤ 240) && decide (got.length ≤ h.length.toNat + 2) &&
      (!frameComplete h got || crcBytes h (got.take h.length.toNat) == got.drop h.length.toNat)
  | .muted => true

/-- The link settings lie in their ranges (R20). -/
abbrev LinkSettings.InRange (w : LinkSettings) : Prop :=
  1 ≤ w.node ∧ w.node ≤ 63 ∧ 8 ≤ w.returnLimit ∧ w.returnLimit ≤ 192 ∧ w.lead ≤ 15 ∧ w.tail ≤ 15

/-- A transmitter with nothing left to send but a character that has begun: IDLE, or finishing a dropped reply's character. -/
def Tx.emptied : Tx → Bool
  | .idle => true
  | .lead _ => false
  | .sending _ _ => false
  | .finishing _ => true
  | .tail => false

/-- A disabled link holds nothing (R21): its transmitter at most finishes a character. -/
abbrev LinkState.Empty (ls : LinkState) : Prop :=
  ls.rx = .hunt ∧ ls.latch = none ∧ ls.queue = [] ∧ ls.errors = 0 ∧ ls.quarantined = false ∧ ls.oldParity = none ∧
    ls.skipping = false ∧ ls.tx.emptied = true

/-- A link keeps its capacity, its ranges and the meaning of DISABLED (R12, R20, R21). -/
abbrev LinkState.Sound (ls : LinkState) : Prop :=
  ls.rx.sound = true ∧ ls.queue.length ≤ 4 ∧ ls.settings.InRange ∧ (ls.enabled = false → ls.Empty)

/-- A source monitor (R43): its count and offset lie in their ranges; without last S there is no count; a QUALIFIED or ACTIVE
one has judged good seconds; a DOWN one holds nothing. -/
abbrev Monitor.Sound (mon : Monitor) : Prop :=
  mon.good ≤ 60 ∧ (∀ p ∈ mon.last, -500 ≤ p.2 ∧ p.2 ≤ 499) ∧ (mon.last = none → mon.good = 0) ∧
    (mon.state = .qualified ∨ mon.state = .active → mon.last.isSome = true ∧ 1 ≤ mon.good) ∧
    (mon.state = .down → mon.last = none ∧ mon.timer = none ∧ mon.missDue = false ∧ mon.waiting = false)

/-- One link with its monitor (R21, R22, R43, R47): DISABLED is DOWN, and the active source is the ACTIVE one. -/
abbrev SourceSound (s : State) (l : Link) : Prop :=
  (s.link l).Sound ∧ (s.monitor l).Sound ∧ ((s.link l).enabled = false ↔ (s.monitor l).state = .down) ∧
    (s.timebase.active = some l ↔ (s.monitor l).state = .active)

/-- The timebase settings lie in their ranges (R59). -/
abbrev TimebaseSettings.InRange (w : TimebaseSettings) : Prop :=
  1 ≤ w.window ∧ w.window ≤ 10 ∧ 2 ≤ w.qualify ∧ w.qualify ≤ 60 ∧ w.warn ≤ 65535 ∧ 1 ≤ w.limit ∧ w.limit ≤ 10080

/-- Links, monitors and active source (01, 03): at most one source is ACTIVE, and an active source has valid time and no
holdover seconds (R47, R50, R52, R56, R58). -/
abbrev ReferenceSound (s : State) : Prop :=
  SourceSound s .a ∧ SourceSound s .b ∧ s.timebase.settings.InRange ∧ s.timebase.m < 1000 ∧
    (s.timebase.active.isSome = true → timeValid s = true ∧ s.timebase.holdover = 0) ∧
    s.timebase.holdover ≤ Config.holdoverMax

/-! ### Time scale and leap list (04, 05) -/

/-- A label states one second of the span (R63): its fields are those of its second number, 23:59:60 sharing the number of
the second before it. -/
abbrev Label.Sound (lab : Label) : Prop :=
  lab.u < 3155760000 ∧ lab.day = lab.u / 86400 ∧ lab.hour = lab.u % 86400 / 3600 ∧ lab.minute = lab.u % 3600 / 60 ∧
    (if lab.inserted then lab.second = 60 ∧ lab.u % 86400 = 86399 else lab.second = lab.u % 60)

/-- The leap list is in order of day within the span, with at most four entries (R78, R79). -/
abbrev LeapsSound (leaps : List LeapEntry) : Prop :=
  leaps.length ≤ 4 ∧ leaps.Pairwise (·.day < ·.day) ∧ ∀ e ∈ leaps, e.day ≤ Config.lastDay

/-- Balance, pending balance, leap list and label agree (R61 to R67, R79 to R82): every later application keeps the balance in
range, and the label names the second U = S − B of the count that the flywheel carries. -/
abbrev TimeSound (s : State) : Prop :=
  balanceInRange s.timeScale.balance = true ∧ balanceInRange s.timeScale.sumBase = true ∧
    sumsInRange s.timeScale.sumBase s.rules.leaps = true ∧ LeapsSound s.rules.leaps ∧
    s.timebase.count = s.timeScale.label.map (·.count) ∧
    ∀ lab ∈ s.timeScale.label,
      lab.Sound ∧ (lab.count : Int) - s.timeScale.balance = lab.u + (if lab.inserted then 1 else 0)

/-! ### Transition list and civil state (05) -/

/-- The transition list is in order of minute within the span, with at most sixteen entries of valid offset (R78, R83). -/
abbrev TransitionsSound (ts : List Transition) : Prop :=
  ts.length ≤ 16 ∧ ts.Pairwise (·.minute < ·.minute) ∧
    ∀ e ∈ ts, e.minute ≤ Config.lastMinute ∧ offsetInRange e.offset = true

/-- Transition list, civil state and windows keep their order and ranges (R78, R83, R87, R89), the view's civil state with
them. -/
abbrev CivilSound (s : State) : Prop :=
  TransitionsSound s.rules.transitions ∧ offsetInRange s.rules.offset = true ∧ 1 ≤ s.rules.leapWindow ∧
    s.rules.leapWindow ≤ 1440 ∧ 1 ≤ s.rules.changeWindow ∧ s.rules.changeWindow ≤ 1440 ∧
    ∀ v ∈ s.assembler.assembly, offsetInRange v.offset = true

/-! ### Maps, words and overrides (06, 07, 08) -/

/-- The length of a code minute (R121). -/
abbrev MinuteLength (n : Nat) : Prop := n = 59 ∨ n = 60 ∨ n = 61

/-- A map that may be on air: 61 entries that pass every check (R107, R110). -/
abbrev MapOnAir (bank : List MapEntry) : Prop := bank.length = 61 ∧ firstFailingCheck bank = none

/-- A test record that may be on air: 60 symbols, the first MARK and the last NIL (R124, R136). -/
abbrev TestOnAir (record : List Symbol) : Prop := record.length = 60 ∧ testRecordFault record = none

/-- A word has as many symbols as its length, and its last symbol is NIL (R119). -/
abbrev CodeWord.Sound (w : CodeWord) : Prop :=
  MinuteLength w.length ∧ w.symbols.length = w.length ∧ w.symbols.getLast? = some .nil

/-- A view from which a word can be built (R116): a map on air, a minute's length, and for content TEST a test record on
air. -/
abbrev View.Sound (v : View) : Prop :=
  MapOnAir v.map ∧ MinuteLength v.length ∧ (v.content = .test → TestOnAir v.test)

/-- An override entry's remaining minutes lie in 1 to 1440 when present (R133). -/
abbrev OverrideEntry.Sound (e : OverrideEntry) : Prop := ∀ n ∈ e.remaining, 1 ≤ n ∧ n ≤ 1440

/-- Banks, words and stack (06, 07, 08): the active bank passes every check at every moment and the shadow while a commit is
pending (R108, R110); every word on air or pending is sound (R119); the test record and the stack guard each other (R136);
marks stand only during an assembly (R142). -/
abbrev WordsSound (s : State) : Prop :=
  MapOnAir s.assembler.activeBank ∧ s.assembler.shadowBank.length = 61 ∧
    (s.assembler.commitPending = true → firstFailingCheck s.assembler.shadowBank = none) ∧
    s.assembler.test.length = 60 ∧ (hasTestEntry s.stack = true → testRecordFault s.assembler.test = none) ∧
    (∀ v ∈ s.assembler.assembly, v.Sound) ∧
    (∀ w ∈ s.assembler.pendingWord, w.Sound ∧ w.broken = false) ∧ (∀ cw ∈ s.assembler.current, cw.word.Sound) ∧
    30 ≤ s.assembler.slotSetting ∧ s.assembler.slotSetting ≤ 57 ∧
    30 ≤ s.assembler.slotInForce ∧ s.assembler.slotInForce ≤ 57 ∧
    s.stack.length ≤ 4 ∧ (∀ e ∈ s.stack, e.Sound) ∧ (s.assembler.assembly = none → ∀ e ∈ s.stack, e.mark = false)

/-! ### The minute on air (04, 05, 07) -/

/-- A leap entry lies ahead of the second that carries count c (R64): it is not due against c. -/
abbrev LeapEntry.Ahead (e : LeapEntry) (c balance : Int) : Prop := e.due c balance = false

/-- What stands for a minute: a transmitted minute and a length, as the leap list gives it (R121). -/
abbrev LengthFor (leaps : List LeapEntry) (minute length : Nat) : Prop := length = wordLength leaps minute

/-- Within a second with a label (R63 to R67, R80, R115, R121, R126, R127): no listed leap second is behind it, and the head is
the entry of an inserted second; the late reference is the next minute, or this one while its assembly is to come; the word
being built and the pending word are for the next minute, the current word is for this one and its last slot begun is this
slot; and each has the length that the leap list gives its minute. -/
abbrev LabelledMinute (s : State) (lab : Label) : Prop :=
  (∀ e ∈ s.rules.leaps, e.Ahead lab.count s.timeScale.balance) ∧
    (lab.inserted = true → ∃ e ∈ s.rules.leaps.head?, e.insert = true ∧ e.midnight = (lab.u : Int) + 1) ∧
    (∀ r ∈ s.rules.lateRef, r = lab.minuteNumber + 1 ∨
      (r = lab.minuteNumber ∧ (lab.second < s.assembler.slotInForce ∨ r = Config.lastMinute))) ∧
    (∀ v ∈ s.assembler.assembly, v.transmitted = lab.minuteNumber + 1 ∧ s.rules.lateRef = some v.transmitted ∧
      LengthFor s.rules.leaps v.transmitted v.length) ∧
    (∀ w ∈ s.assembler.pendingWord, w.transmitted = lab.minuteNumber + 1 ∧ s.rules.lateRef = some w.transmitted ∧
      LengthFor s.rules.leaps w.transmitted w.length) ∧
    ∀ cw ∈ s.assembler.current, cw.word.transmitted = lab.minuteNumber ∧ cw.lastSlot = lab.second ∧
      cw.lastSlot < cw.word.length ∧ s.rules.lateRef.isSome = true ∧
      LengthFor s.rules.leaps cw.word.transmitted cw.word.length

/-- The words and the labels agree (R121, R126, R127, R130): without a label there is no word and no assembly, and within a
labelled second the words are those of its minute. -/
abbrev MinuteSound (s : State) : Prop :=
  (s.timeScale.label = none →
    s.assembler.assembly = none ∧ s.assembler.pendingWord = none ∧ s.assembler.current = none) ∧
    ∀ lab ∈ s.timeScale.label, LabelledMinute s lab

/-! ### Keying and the carrier (09, 10) -/

/-- A dip shape in its ranges that satisfies the three relations under a full level (R146). -/
abbrev DipShape.Sound (d : DipShape) (full : Nat) : Prop :=
  10 ≤ d.ldip ∧ d.ldip ≤ 900 ∧ d.rd ≤ 63 ∧ d.ru ≤ 63 ∧ d.low < full ∧ d.rd ≤ d.ldip ∧ d.ldip + d.ru ≤ 950

/-- A profile in its ranges with the relations in each shape (R146). -/
abbrev Profile.Sound (p : Profile) : Prop :=
  100 ≤ p.full ∧ p.full ≤ 1000 ∧ p.zero.Sound p.full ∧ p.one.Sound p.full ∧ p.mark.Sound p.full

/-- A slot latch that some sound profile gave (R145, R150). -/
abbrev SlotLatch.Sound (x : SlotLatch) : Prop :=
  100 ≤ x.full ∧ x.full ≤ 1000 ∧ (x.symbol = .nil ↔ x.shape = none) ∧ ∀ d ∈ x.shape, d.Sound x.full

/-- The profile table and the latch satisfy their relations (R146), a ramp its ranges (R163, R165), and no sample exceeds full
carrier (R155, R165). -/
abbrev EnvelopeSound (s : State) : Prop :=
  s.keying.profiles.p0.Sound ∧ s.keying.profiles.p1.Sound ∧ s.keying.profiles.p2.Sound ∧ s.keying.profiles.p3.Sound ∧
    s.keying.latch.Sound ∧ s.keying.keyOut.amplitude ≤ 1000 ∧ (∀ a ∈ s.keying.stepAmp, a ≤ 1000) ∧
    100 ≤ s.carrier.rampSetting ∧ s.carrier.rampSetting ≤ 10000 ∧ 100 ≤ s.carrier.rc ∧ s.carrier.rc ≤ 10000 ∧
    100 ≤ s.carrier.fr ∧ s.carrier.fr ≤ 1000 ∧ s.carrier.k ≤ s.carrier.rc

/-- The flywheel position and the slot sample index move together (R40, R150, R152, R156): they are equal, but at a wrap whose
boundary is still to be taken. -/
abbrev SlotSound (s : State) : Prop :=
  s.timebase.m < 1000 ∧ (if s.timebase.wrapDue then s.timebase.m = 0 else s.keying.j = s.timebase.m)

/-- The carrier is up: RISING or STEADY. -/
def CarrierState.up : CarrierState → Bool
  | .off => false
  | .rising => true
  | .steady => true
  | .falling => false

/-- Carrier and code states agree (R165, R167, R168, R171, R173, R174): code runs only on a STEADY carrier and is armed only on
one that is up; the carrier-off-after-minute flag stands only with ENDING; while the halt latch is set or HALT is asserted the
carrier is not up; an OFF carrier stands at k = 0 and a STEADY one at Rc. -/
abbrev CarrierSound (s : State) : Prop :=
  (s.carrier.code.keys = true → s.carrier.state = .steady) ∧ (s.carrier.code ≠ .off → s.carrier.state.up = true) ∧
    (s.carrier.offAfter = true → s.carrier.code = .ending) ∧
    (s.carrier.haltLatch = true ∨ haltAsserted s = true → s.carrier.state.up = false) ∧
    (s.carrier.state = .off → s.carrier.k = 0) ∧ (s.carrier.state = .steady → s.carrier.k = s.carrier.rc) ∧
    (s.carrier.rampEnd = true →
      (s.carrier.state = .rising ∧ s.carrier.k = s.carrier.rc) ∨ (s.carrier.state = .falling ∧ s.carrier.k = 0))

/-! ### Station lines, executor and counters (11, 02, 12) -/

/-- A line's settings and filter lie in their ranges, and its enables are functions of its own (R175, R176). -/
abbrev LineSound (s : State) (n : LineId) : Prop :=
  (s.line n).filter ≤ 15 ∧ (s.line n).run ≤ 15 ∧ (s.line n).enables.toNat < 2 ^ (functionsOf n).length

/-- A strobe timer runs for at most the greatest width (R175, R181). -/
abbrev StrobeSound (t : Option Nat) : Prop := ∀ n ∈ t, n ≤ 500

/-- The station line unit keeps its ranges (R175, R176). -/
abbrev LinesSound (s : State) : Prop :=
  (∀ n ∈ allLines, LineSound s n) ∧ 1 ≤ s.lineUnit.strobeWidth ∧ s.lineUnit.strobeWidth ≤ 500 ∧
    s.lineUnit.strobeSlot ≤ 60 ∧ StrobeSound s.lineUnit.strobes.minute ∧ StrobeSound s.lineUnit.strobes.slot ∧
    StrobeSound s.lineUnit.strobes.second

/-- A transmitter that holds a reply not yet sent whole: LEAD or SENDING. -/
def Tx.holdsReply : Tx → Bool
  | .idle => false
  | .lead _ => true
  | .sending _ _ => true
  | .finishing _ => false
  | .tail => false

/-- The executor (R31, R32, R38): the privileged link is the strap's, PERMISSIONS is never granted, and a restart is awaited
only while its reply is on its way. -/
abbrev ExecutorSound (s : State) : Prop :=
  s.executor.privileged = s.lineUnit.strap ∧ s.executor.permissions &&& ~~~0x07FF = 0 ∧
    ∀ l ∈ s.executor.restartPending, (s.link l).tx.holdsReply = true

/-- No counter passes 65,535 (R188). -/
abbrev CountersSound (s : State) : Prop :=
  s.status.brokenMinutes ≤ 65535 ∧ s.status.timeSteps ≤ 65535 ∧ s.status.minutesCoded ≤ 65535 ∧
    s.status.strayPulses.a ≤ 65535 ∧ s.status.strayPulses.b ≤ 65535 ∧
    s.status.badSeconds.a ≤ 65535 ∧ s.status.badSeconds.b ≤ 65535 ∧
    s.status.framesDiscarded.a ≤ 65535 ∧ s.status.framesDiscarded.b ≤ 65535

/-! ### The terms of the statements -/

/-- The source link of a request command; none for an event (R26). -/
def sourceOf : Instr → Option Link
  | .powerOnReset _ => none
  | .byteReceived _ _ => none
  | .characterFault _ _ => none
  | .idle _ => none
  | .leadExpiry _ => none
  | .replyComplete _ => none
  | .tailExpiry _ => none
  | .setLink src => some src.link
  | .setReturnLimit src => some src
  | .disableLink src => some src.link
  | .enableLink src => some src.link
  | .setPermissions src => some src
  | .softRestart src => some src
  | .controlCarrierOn src => some src
  | .controlCarrierOff src => some src
  | .controlCodeOn src => some src
  | .controlCodeOff src => some src
  | .controlProfileSelect src => some src
  | .controlSpare src => some src
  | .setTimebase src => some src
  | .setBalance src => some src
  | .setCivil src => some src
  | .setWindows src => some src
  | .addLeap src => some src
  | .deleteLeap src => some src
  | .addTransition src => some src
  | .deleteTransition src => some src
  | .writeMap src => some src
  | .copyMap src => some src
  | .commitMap src => some src
  | .cancelCommit src => some src
  | .writeTest src => some src
  | .pushOverride src => some src
  | .popOverride src => some src
  | .removeOverride src => some src
  | .writeProfile src => some src
  | .setRamp src => some src
  | .setAssemblySlot src => some src
  | .writeLines src _ => some src
  | .readMap src => some src
  | .readProfile src => some src
  | .readLists src => some src
  | .readStack src => some src
  | .readWord src => some src
  | .readLines src => some src
  | .readStatus src => some src
  | .unknownRequest src => some src
  | .keyingStep _ => none
  | .risingComplete => none
  | .fallingComplete => none
  | .flywheelWrap => none
  | .assemblyCompletion => none
  | .pulse _ => none
  | .missingSecond _ => none
  | .lineFilterChange _ => none
  | .strobeEnd _ => none
  | .characterInProgressCompleted _ => none

/-- From link src the executor takes, at its next take, the request rq, whose name has this code (R25 to R27). -/
def Takes (name : Byte) (src : Link) (s : State) (rq : Request) : Prop :=
  ∃ f q, (s.link src).queue = f :: q ∧ serves s src = true ∧ requestOf src f = some rq ∧ rq.name = name

/-- The commands of a list, one after the other. -/
def execAll : List Instr → State → Out
  | [], s => .next s
  | c :: cs, s =>
    match exec c s with
    | .next t => execAll cs t
    | .fault r => .fault r
    | .refused r => .refused r

/-- The character that carries a byte without fault under a parity setting (R1). -/
def goodChar (p : Parity) (b : Byte) : RxChar :=
  { data := b
    parityBit := match p with
      | .none => false
      | .even => oddOnes (bitsOf b)
      | .odd => !oddOnes (bitsOf b)
    stopBit := true }

/-- A header with its check byte, one of its 30 code bits inverted: header bits 0 to 23, then c0 to c5 (R5). -/
def damage (i : Nat) (hc : Header × Byte) : Header × Byte :=
  if i < 24 then (flipHeaderBit hc.1 i, hc.2) else (hc.1, hc.2 ^^^ byteOf (2 ^ (i - 24)))

/-- The data bytes that a chain of reads brings from an offset on, each read starting where the reply before said (R35, 2.10).
At most `fuel` reads are made. -/
def readChain (image : List Byte) (limit : Nat) (s : State) : Nat → Nat → List Byte
  | 0, _ => []
  | fuel + 1, offset =>
    let an := readAnswer image offset limit s
    if an.outcome = .more then an.data.drop 2 ++ readChain image limit s fuel (ofBytes (an.data.take 2))
    else an.data.drop 2

/-- A row of the request-name list: its name code, its command, its handler and, where they are fixed, the length of its
arguments and the class it belongs to (R27, R32, 12.7). -/
structure RequestRow where
  name : Byte
  command : Instr
  handler : Request → State → Answer
  length : Option Nat
  cls : Option PermClass

/-- The rows of the request-name list but CONTROL, on a source link, with the pin levels of a WRITE_LINES and what stands on the
wires at a SET_LINK, DISABLE_LINK or ENABLE_LINK. -/
def requestRows (src : Link) (pins : PinIn) (wire : WireIn) : List RequestRow :=
  [⟨0x01, .setLink ⟨src, wire⟩, checked 6 .link (setLinkAnswer wire), some 6, some .link⟩,
   ⟨0x02, .setReturnLimit src, checked 1 .link setReturnLimitAnswer, some 1, some .link⟩,
   ⟨0x03, .disableLink ⟨src, wire⟩, lengthChecked 1 (disableLinkAnswer wire), some 1, none⟩,
   ⟨0x04, .enableLink ⟨src, wire⟩, lengthChecked 1 (enableLinkAnswer wire), some 1, none⟩,
   ⟨0x05, .setPermissions src, lengthChecked 4 setPermissionsAnswer, some 4, none⟩,
   ⟨0x06, .softRestart src, checked 0 .restart softRestartAnswer, some 0, some .restart⟩,
   ⟨0x08, .setTimebase src, checked 9 .timebase setTimebaseAnswer, some 9, some .timebase⟩,
   ⟨0x09, .setBalance src, checked 1 .rules setBalanceAnswer, some 1, some .rules⟩,
   ⟨0x0A, .setCivil src, checked 2 .rules setCivilAnswer, some 2, some .rules⟩,
   ⟨0x0B, .setWindows src, checked 4 .rules setWindowsAnswer, some 4, some .rules⟩,
   ⟨0x0C, .addLeap src, checked 3 .rules addLeapAnswer, some 3, some .rules⟩,
   ⟨0x0D, .deleteLeap src, checked 2 .rules deleteLeapAnswer, some 2, some .rules⟩,
   ⟨0x0E, .addTransition src, checked 6 .rules addTransitionAnswer, some 6, some .rules⟩,
   ⟨0x0F, .deleteTransition src, checked 4 .rules deleteTransitionAnswer, some 4, some .rules⟩,
   ⟨0x10, .writeMap src, writeMapAnswer, none, some .maps⟩,
   ⟨0x11, .copyMap src, checked 0 .maps copyMapAnswer, some 0, some .maps⟩,
   ⟨0x12, .commitMap src, checked 0 .maps commitMapAnswer, some 0, some .maps⟩,
   ⟨0x13, .cancelCommit src, checked 0 .maps cancelCommitAnswer, some 0, some .maps⟩,
   ⟨0x14, .writeTest src, writeTestAnswer, none, some .overrides⟩,
   ⟨0x15, .pushOverride src, checked 6 .overrides pushOverrideAnswer, some 6, some .overrides⟩,
   ⟨0x16, .popOverride src, checked 0 .overrides popOverrideAnswer, some 0, some .overrides⟩,
   ⟨0x17, .removeOverride src, checked 1 .overrides removeOverrideAnswer, some 1, some .overrides⟩,
   ⟨0x18, .writeProfile src, checked 21 .profiles writeProfileAnswer, some 21, some .profiles⟩,
   ⟨0x19, .setRamp src, checked 2 .carrier setRampAnswer, some 2, some .carrier⟩,
   ⟨0x1A, .setAssemblySlot src, checked 1 .code setAssemblySlotAnswer, some 1, some .code⟩,
   ⟨0x1B, .writeLines src pins, checked 8 .lines (writeLinesAnswer pins), some 8, some .lines⟩,
   ⟨0x20, .readMap src, lengthChecked 3 readMapAnswer, some 3, none⟩,
   ⟨0x21, .readProfile src, lengthChecked 3 readProfileAnswer, some 3, none⟩,
   ⟨0x22, .readLists src, lengthChecked 2 readListsAnswer, some 2, none⟩,
   ⟨0x23, .readStack src, lengthChecked 2 readStackAnswer, some 2, none⟩,
   ⟨0x24, .readWord src, lengthChecked 2 readWordAnswer, some 2, none⟩,
   ⟨0x25, .readLines src, lengthChecked 2 readLinesAnswer, some 2, none⟩,
   ⟨0x26, .readStatus src, lengthChecked 3 readStatusAnswer, some 3, none⟩]

/-- The six commands that can take a CONTROL (log 4). -/
def controlCommands (src : Link) : List Instr :=
  [.controlCarrierOn src, .controlCarrierOff src, .controlCodeOn src, .controlCodeOff src, .controlProfileSelect src,
   .controlSpare src]

/-- Nothing that falls in the present keying step waits to be taken (log 5). -/
abbrev Quiet (s : State) : Prop :=
  (∀ n ∈ allLines, (s.line n).filterDue = false) ∧ s.lineUnit.l6Pulse = false ∧ s.timebase.wrapDue = false ∧
    s.timebase.monitors.a.missDue = false ∧ s.timebase.monitors.b.missDue = false ∧
    s.timebase.monitors.a.waiting = false ∧ s.timebase.monitors.b.waiting = false ∧
    s.lineUnit.strobes.minute ≠ some 0 ∧ s.lineUnit.strobes.slot ≠ some 0 ∧ s.lineUnit.strobes.second ≠ some 0 ∧
    s.carrier.rampEnd = false

/-- An edge on this input is at present a pulse of the source (R42, R184): on L6, one that the line unit has handed over (log
27). -/
abbrev PulseOn (x : Link) (i : PulseInput) (s : State) : Prop :=
  (x = .a ∧ i = .ppsA) ∨ (x = .b ∧ i = .ppsB ∧ routedL6 s = false) ∨
    (x = .b ∧ i = .lineL6 ∧ s.lineUnit.l6Pulse = true)

/-- No pulse on L6 but the one on this input is at hand in the present keying step (R42, R184). -/
abbrev AloneInStep (i : PulseInput) (s : State) : Prop :=
  (s.lineUnit.l6Pulse = true → i = .lineL6) ∧ (routedL6 s = true → (s.line .l6).filterDue = false)

/-- The days of a date since 2000-01-01, counted year by year and month by month. -/
def daysBefore (year month mday : Nat) : Int :=
  365 * ((year : Int) - 2000) + ((year : Int) - 1997) / 4 +
    ((List.range (month - 1)).map fun m =>
      if m = 1 then (if year % 4 = 0 then 29 else 28) else if m = 3 ∨ m = 5 ∨ m = 8 ∨ m = 10 then 30 else 31).sum +
    ((mday : Int) - 1)

end Sys2Proof.Machine
end

