-- ==== Sys2Proof/Certificates/Slice0/Obligations.lean ====
section
/-! DEFINITION. The statements for the provers. Each is about the model's own `step`, `exec` and operations; the terms that
several of them use stand at the end of Safety.lean. -/

open Sys2Proof Sys2Proof.Machine

/-! ### The queue of commands and the reset -/

/-- One step executes the command at the front of the queue with the rest of the queue behind it; on an empty queue it idles
(the model's choice, log 2). -/
def Obligations.StepRunsFrontCommand : Prop :=
  (∀ (c : Instr) (s : State) (rest : List Instr), s.pending = c :: rest → step s = exec c (s.withPending rest)) ∧
    ∀ s : State, s.pending = [] → step s = .next s

/-- Every command answers a next state in every state (also where its event cannot happen: the model's choice, log 1); it
leaves the queue of commands as it is, and what it does does not depend on it (the queue is the model's own, log 2;
POWER_ON_RESET keeps it too, log 26). -/
def Obligations.CommandsIgnoreTheQueue : Prop :=
  ∀ (c : Instr) (s : State), ∃ t, exec c s = .next t ∧ t.pending = s.pending ∧
    ∀ q : List Instr, exec c (s.withPending q) = .next (t.withPending q)

/-- What power-on leaves in each block, as the tables of the chapters give it (01, R24, R39, 4.1, R59, R78, R95, R113, R133,
R145, R163, R175, R193). The values the model chose (logs 11, 12, 13) are not in it, but that no character is under way at a
change of parity or at an enabling (log 9). -/
def Obligations.ResetValues : Prop :=
  let s := State.reset
  (∀ l, s.link l =
    { enabled := true, rx := .hunt, latch := none, queue := [], errors := 0, quarantined := false,
      settings := { node := 1, parity := .none, stopOnError := false, returnLimit := 16, lead := 0, tail := 0 },
      tx := .idle, oldParity := none, skipping := false }) ∧
  s.executor.lastServed = .b ∧ s.executor.permissions = 0 ∧ s.executor.restartPending = none ∧
  s.timebase.m = 0 ∧ s.timebase.count = none ∧ s.timebase.active = none ∧ s.timebase.holdover = 0 ∧
  s.timebase.settings =
    { window := 2, qualify := 10, preferred := .a, revertive := true, acceptDegraded := false, warn := 600, limit := 240 } ∧
  (∀ x, (s.monitor x).state = .hunting ∧ (s.monitor x).good = 0 ∧ (s.monitor x).last = none ∧ (s.monitor x).timer = none) ∧
  s.timeScale = { balance := 0, pendingBalance := none, label := none } ∧
  s.rules =
    { leaps := [], transitions := [], offset := 0, summer := false, leapWindow := 60, changeWindow := 60, lateRef := none,
      lastMismatch := none } ∧
  s.assembler.bank0 = factoryMap ∧ s.assembler.bank1 = factoryMap ∧ s.assembler.active1 = false ∧
  s.assembler.commitPending = false ∧ s.assembler.test = Symbol.mark :: List.replicate 59 Symbol.nil ∧
  s.assembler.spare = 0 ∧ s.assembler.selection = 0 ∧ s.assembler.slotSetting = 52 ∧ s.assembler.slotInForce = 52 ∧
  s.assembler.assembly = none ∧ s.assembler.pendingWord = none ∧ s.assembler.current = none ∧ s.stack = [] ∧
  s.keying.profiles = factoryProfiles ∧ s.keying.latch = { symbol := .nil, profile := 0, full := 1000, shape := none } ∧
  s.keying.j = 0 ∧ s.keying.holdSuppress = false ∧
  s.carrier.state = .off ∧ s.carrier.k = 0 ∧ s.carrier.rampSetting = 2000 ∧ s.carrier.rc = 2000 ∧ s.carrier.fr = 1000 ∧
  s.carrier.code = .off ∧ s.carrier.offAfter = false ∧ s.carrier.haltLatch = false ∧
  (∀ n, (s.line n).enables = 0 ∧ (s.line n).dirOut = false ∧ (s.line n).level = false ∧ (s.line n).invert = false ∧
    (s.line n).pull = .none ∧ (s.line n).edge = .none ∧ (s.line n).filter = 0 ∧ (s.line n).run = 0 ∧
    (s.line n).edgeFlag = false) ∧
  s.lineUnit.strobeWidth = 100 ∧ s.lineUnit.strobeSlot = 0 ∧
  s.lineUnit.strobes = { minute := none, slot := none, second := none } ∧ s.status = clearedStatus

/-- POWER_ON_RESET from any state (R23, R31, R175, R185): every block as after reset, but that the strap's level names the
privileged link and that each line's filtered and raw levels are the pin's level at the end of the reset; every line has its
settings, the strobes their width, slot and timers of power-on. The model's choices in it: the raw level and the marks of
events (logs 5, 11), the sample word before the first step (log 12), the queue and the counter of free values, which are kept
(logs 13, 26), and what is held of the pulses of a step, of the end of a ramp in it and of a character under way (logs 5, 9,
41). -/
def Obligations.PowerOnResetRestores : Prop :=
  ∀ (pins : PinIn) (s : State), ∃ t, exec (.powerOnReset pins) s = .next t ∧
    (t.lineUnit.strap = if pins.level.getLsbD 7 then .b else .a) ∧ t.executor.privileged = t.lineUnit.strap ∧
    (∀ n, t.line n =
      { enables := 0, dirOut := false, level := false, invert := false, pull := .none, edge := .none, filter := 0,
        filtered := pins.level.getLsbD (LineId.index n), run := 0, raw := pins.level.getLsbD (LineId.index n),
        edgeFlag := false, filterDue := false }) ∧
    t.lineUnit.strobeWidth = 100 ∧ t.lineUnit.strobeSlot = 0 ∧
    t.lineUnit.strobes = { minute := none, slot := none, second := none } ∧ t.lineUnit.l6Pulse = false ∧
    t.links = State.reset.links ∧ t.executor.lastServed = .b ∧ t.executor.permissions = 0 ∧
    t.executor.restartPending = none ∧ t.timebase = State.reset.timebase ∧ t.timeScale = State.reset.timeScale ∧
    t.rules = State.reset.rules ∧ t.assembler = State.reset.assembler ∧ t.stack = [] ∧
    t.keying = State.reset.keying ∧ t.keying.profiles = factoryProfiles ∧ t.keying.j = 0 ∧
    t.keying.holdSuppress = false ∧ t.carrier = State.reset.carrier ∧ t.status = clearedStatus ∧
    t.freeDraws = s.freeDraws ∧ t.pending = s.pending

/-! ### Reference links (01) -/

/-- Recording an error (R13, R15, R188): its bit is set and no other; a FRAMING, PARITY, CHECKSUM_BAD, HEADER_BAD or TRUNCATED
quarantines a link with stop-on-error on; a kind that discards a frame counts in the link's FRAMES_DISCARDED; nothing else of
the part changes. -/
def Obligations.ErrorIsRecorded : Prop :=
  ∀ (l : Link) (k : ErrKind) (s : State),
    let t := recordError l k s
    (∀ i < 16, hasBit (t.link l).errors i = (hasBit (s.link l).errors i || i == k.bit)) ∧
    ((t.link l).quarantined = true ↔ (s.link l).quarantined = true ∨
      ((s.link l).settings.stopOnError = true ∧
        (k = .framing ∨ k = .parity ∨ k = .checksumBad ∨ k = .headerBad ∨ k = .truncated))) ∧
    t.status.framesDiscarded.get l =
      (if k = .headerCorrected ∨ k = .epochOverwritten ∨ k = .epochRange then s.status.framesDiscarded.get l
        else min 65535 (s.status.framesDiscarded.get l + 1)) ∧
    t.status = { s.status with framesDiscarded := s.status.framesDiscarded.set l (t.status.framesDiscarded.get l) } ∧
    t = (s.setLink l
      { s.link l with errors := (t.link l).errors, quarantined := (t.link l).quarantined }).withStatus t.status

/-- Characters received. What one is (R1): a low stop bit is a FRAMING fault; otherwise EVEN has a PARITY fault on an odd
number of ones in data and parity bit together, ODD on an even number, NONE never. What it does on an ENABLED link, by the
receive state (R4, R8, the table of R10), judged under the parity in force when its start bit began (R20); one that began
before the link was enabled is not taken, only its end is noted (R22). What is held of a character under way are the model's
own fields (log 9). A byte: HUNT opens a frame at C3h and ignores others; HEADER stores the first three bytes; PAYLOAD stores,
checks the CRC with its last byte and rejects a byte after it; MUTED ignores. A faulty character: HEADER and PAYLOAD record
its fault and go to MUTED; HUNT and MUTED ignore it. -/
def Obligations.CharactersByReceiveState : Prop :=
  (∀ c : RxChar,
    let ones := (List.range 8).countP (c.data.getLsbD ·) + c.parityBit.toNat
    (c.stopBit = false → ∀ p, judgeChar p c = .framing) ∧
    (c.stopBit = true → judgeChar .none c = .byte c.data ∧
      judgeChar .even c = (if ones % 2 = 1 then .parity else .byte c.data) ∧
      judgeChar .odd c = (if ones % 2 = 0 then .parity else .byte c.data))) ∧
  ∀ (l : Link) (c : RxChar) (s : State), (s.link l).enabled = true →
    let p := (s.link l).oldParity.getD (s.link l).settings.parity
    let s0 := s.setLink l { s.link l with oldParity := none, skipping := false }
    ((s.link l).skipping = true → exec (.byteReceived l c) s = .next s0 ∧ exec (.characterFault l c) s = .next s0) ∧
    ((s.link l).skipping = false →
      (∀ b, judgeChar p c = .byte b →
        ((s.link l).rx = .hunt →
          exec (.byteReceived l c) s = .next (if b = 0xC3 then setRx l (.header []) s0 else s0)) ∧
        (∀ got, (s.link l).rx = .header got → got.length < 3 →
          exec (.byteReceived l c) s = .next (setRx l (.header (got ++ [b])) s0)) ∧
        (∀ h check got, (s.link l).rx = .payload h check got → got.length < h.length.toNat + 1 →
          exec (.byteReceived l c) s = .next (setRx l (.payload h check (got ++ [b])) s0)) ∧
        (∀ h check got, (s.link l).rx = .payload h check got → got.length = h.length.toNat + 1 →
          exec (.byteReceived l c) s = .next
            (if be2 (crc16 ([h.address, h.kind, h.length] ++ got.take h.length.toNat)).toNat
                = (got ++ [b]).drop h.length.toNat then setRx l (.payload h check (got ++ [b])) s0
              else setRx l .muted (recordError l .checksumBad s0))) ∧
        (∀ h check got, (s.link l).rx = .payload h check got → h.length.toNat + 2 ≤ got.length →
          exec (.byteReceived l c) s = .next (setRx l .muted (recordError l .lengthMismatch s0))) ∧
        ((s.link l).rx = .muted → exec (.byteReceived l c) s = .next s0)) ∧
      (∀ k, (judgeChar p c = .framing ∧ k = ErrKind.framing) ∨ (judgeChar p c = .parity ∧ k = ErrKind.parity) →
        ((s.link l).rx = .hunt ∨ (s.link l).rx = .muted → exec (.characterFault l c) s = .next s0) ∧
        ((∃ got, (s.link l).rx = .header got) ∨ (∃ h check got, (s.link l).rx = .payload h check got) →
          exec (.characterFault l c) s = .next (setRx l .muted (recordError l k s0)))))

/-- The check byte of a header on an ENABLED link that takes the character (R6, R7): a bad header is recorded and muted; a
good or corrected one passes the address, kind and length filters in this order, a correction being recorded once the address
has passed. What is held of a character under way, which ends with it, are the model's own fields (log 9). -/
def Obligations.HeadersAreFiltered : Prop :=
  ∀ (l : Link) (c : RxChar) (s : State) (a k n check : Byte) (h : Header) (fixed : Bool),
    (s.link l).enabled = true → (s.link l).skipping = false →
    judgeChar ((s.link l).oldParity.getD (s.link l).settings.parity) c = .byte check →
    (s.link l).rx = .header [a, k, n] →
    let s0 := s.setLink l { s.link l with oldParity := none, skipping := false }
    (judgeHeader { address := a, kind := k, length := n } check = .bad →
      exec (.byteReceived l c) s = .next (setRx l .muted (recordError l .headerBad s0))) ∧
    (judgeHeader { address := a, kind := k, length := n } check = (if fixed then .corrected h else .clean) →
      (fixed = false → h = { address := a, kind := k, length := n }) →
      let s1 := if fixed then recordError l .headerCorrected s0 else s0
      (h.address ≠ 0 ∧ h.address.toNat ≠ (s.link l).settings.node →
        exec (.byteReceived l c) s = .next (setRx l .muted s0)) ∧
      (h.address = 0 ∨ h.address.toNat = (s.link l).settings.node →
        ((h.kind ≠ 1 ∧ h.kind ≠ 2 ∧ h.kind ≠ 3) ∨ (h.kind = 1 ∧ h.address ≠ 0) →
          exec (.byteReceived l c) s = .next (setRx l .muted (recordError l .unknownKind s1))) ∧
        (((h.kind = 1 ∧ h.address = 0) ∨ h.kind = 2 ∨ h.kind = 3) →
          (240 < h.length.toNat ∨ (h.kind = 1 ∧ h.length ≠ 7) →
            exec (.byteReceived l c) s = .next (setRx l .muted (recordError l .lengthMismatch s1))) ∧
          (h.length.toNat ≤ 240 ∧ (h.kind = 1 → h.length = 7) →
            exec (.byteReceived l c) s = .next (setRx l (.payload h check []) s1)))))

/-- Idle on an ENABLED link (R2, R9 to R12, R17): HUNT ignores it and MUTED ends; an incomplete frame is TRUNCATED; a complete
epoch frame is latched, over an unread one with EPOCH_OVERWRITTEN; filler is dropped; a request is queued, but not on a
quarantined link unless it is READ_STATUS, and not on a full queue. -/
def Obligations.IdleTakesFrames : Prop :=
  ∀ (l : Link) (s : State), (s.link l).enabled = true →
    ((s.link l).rx = .hunt → exec (.idle l) s = .next s) ∧
    ((s.link l).rx = .muted → exec (.idle l) s = .next (setRx l .hunt s)) ∧
    (∀ got, (s.link l).rx = .header got → exec (.idle l) s = .next (setRx l .hunt (recordError l .truncated s))) ∧
    ∀ h check got, (s.link l).rx = .payload h check got →
      (got.length < h.length.toNat + 2 → exec (.idle l) s = .next (setRx l .hunt (recordError l .truncated s))) ∧
      (h.length.toNat + 2 ≤ got.length →
        let payload := got.take h.length.toNat
        let s1 := setRx l .hunt s
        (h.kind = 1 →
          let s2 := if (s.link l).latch = none then s1 else recordError l .epochOverwritten s1
          exec (.idle l) s = .next (s2.setLink l { s2.link l with latch := some (epochOf payload) })) ∧
        (h.kind = 3 → exec (.idle l) s = .next s1) ∧
        (h.kind = 2 →
          ((s.link l).quarantined = true ∧ payload.head? ≠ some 0x26 →
            exec (.idle l) s = .next (recordError l .droppedQuarantined s1)) ∧
          ((s.link l).quarantined = false ∨ payload.head? = some 0x26 →
            (4 ≤ (s.link l).queue.length → exec (.idle l) s = .next (recordError l .queueOverrun s1)) ∧
            ((s.link l).queue.length < 4 →
              exec (.idle l) s = .next (s1.setLink l
                { s1.link l with
                  queue := (s.link l).queue ++ [{ address := h.address, payload := payload }] })))))

/-- The header code (R5, R6): a header with its own check byte is clean; any one of the 30 code bits inverted is corrected to
the header sent; any two inverted are detected as bad; bits 6 and 7 of the check byte are ignored. -/
def Obligations.HeaderCodeCorrectsOneDetectsTwo : Prop :=
  ∀ h : Header,
    judgeHeader h (checkByte h) = .clean ∧
    (∀ i < 30, let d := damage i (h, checkByte h); judgeHeader d.1 d.2 = .corrected h) ∧
    (∀ j < 30, ∀ i < j, let d := damage i (damage j (h, checkByte h)); judgeHeader d.1 d.2 = .bad) ∧
    ∀ check : Byte, judgeHeader h (check ^^^ 0x40) = judgeHeader h check ∧ judgeHeader h (check ^^^ 0x80) = judgeHeader h check

/-- A whole frame, sent character by character without fault to an ENABLED link in HUNT and followed by idle, arrives (R4 to
R12): a request for the node or for all is queued when the queue holds fewer than 4 and the link is not quarantined (a
READ_STATUS also then); an epoch frame is latched when the latch is empty; filler leaves no trace. Nothing else changes. No
character was under way at a change of parity or when the link was enabled (log 9). -/
def Obligations.WholeFramesArrive : Prop :=
  ∀ (l : Link) (s : State) (address : Byte) (payload : List Byte),
    (s.link l).enabled = true → (s.link l).rx = .hunt → (s.link l).oldParity = none →
    (s.link l).skipping = false → payload.length ≤ 240 →
    (address = 0 ∨ address.toNat = (s.link l).settings.node) →
    let sent (kind : Byte) : Out :=
      execAll ((encodeFrame address kind payload).map
        (fun b => Instr.byteReceived l (goodChar (s.link l).settings.parity b)) ++ [.idle l]) s
    ((s.link l).queue.length < 4 → ((s.link l).quarantined = false ∨ payload.head? = some 0x26) →
      sent 0x02 = .next (s.setLink l
        { s.link l with queue := (s.link l).queue ++ [{ address := address, payload := payload }] })) ∧
    (address = 0 → payload.length = 7 → (s.link l).latch = none →
      sent 0x01 = .next (s.setLink l { s.link l with latch := some (epochOf payload) })) ∧
    sent 0x03 = .next s

/-- The return transmitter and its wire. A character is a low start bit, the data bits least significant first, a bit that
makes the ones even or odd under EVEN or ODD, a high stop bit (R1). SENDING sends the frame's characters back to back, each
under the parity in force when it begins, also across a change; otherwise the wire is high (R3). The lead ends in SENDING, at
a send point that sends and empties the error set and lifts the quarantine for a READ_STATUS reply (log 19); the last stop bit
leads to TAIL when REPLY_DRIVE is enabled and the tail time is not 0, else to IDLE; the tail ends in IDLE (R14, R17, R18). A
dropped reply ends with the character in progress (R21, R23; log 36). How many have begun comes with the command (log 42). -/
def Obligations.TransmitterPassesItsStates : Prop :=
  (∀ (p : Parity) (b : Byte),
    let w := charBits p b
    let ones := (List.range 9).countP fun i => w.getD (i + 1) false
    w.length = (if p = .none then 10 else 11) ∧ w[0]? = some false ∧ w.getLast? = some true ∧
      (∀ i < 8, w[i + 1]? = some (b.getLsbD i)) ∧ (p = .even → ones % 2 = 0) ∧ (p = .odd → ones % 2 = 1)) ∧
  (∀ (ls : LinkState) (p : Parity) (frame : List Byte) (begun : List WireChar) (n : Nat),
    ls.tx = .sending frame begun → begun.length ≤ n → n ≤ frame.length →
    let old : List WireChar := begun ++ ((frame.take n).drop begun.length).map (charBits ls.settings.parity)
    ({ ls with tx := ls.tx.withBegun ls.settings.parity n, settings := { ls.settings with parity := p } }).returnChars =
      old ++ (frame.drop n).map (charBits p) ∧
    (1 ≤ n → ∃ c, old[n - 1]? = some c ∧ ls.tx.dropped ls.settings.parity n = .finishing c)) ∧
  ∀ (l : Link) (s : State),
    (∀ r, (s.link l).tx = .lead r →
      let frame := encodeFrame (byteOf r.address) 0x04 ([r.tag, r.outcome.code] ++ be2 (s.link l).errors.toNat ++ r.data)
      let p := (s.link l).settings.parity
      ∃ t, exec (.leadExpiry l) s = .next t ∧
        t = s.setLink l
          { s.link l with
            tx := .sending frame [charBits p 0xC3]
            errors := 0
            quarantined := (s.link l).quarantined && !r.ofStatus } ∧
        (t.link l).returnChars = frame.map (charBits p)) ∧
    ((s.link l).tx = .idle ∨ (∃ r, (s.link l).tx = .lead r) ∨ (s.link l).tx = .tail →
      ∀ n, (s.link l).returnWire n = true) ∧
    (∀ bytes begun wire, (s.link l).tx = .sending bytes begun → s.executor.restartPending ≠ some l →
      exec (.replyComplete ⟨l, wire⟩) s = .next (s.setLink l
        { s.link l with
          tx := if replyDriveEnabled l s = true ∧ (s.link l).settings.tail ≠ 0 then .tail else .idle })) ∧
    ((s.link l).tx = .tail → exec (.tailExpiry l) s = .next (s.setLink l { s.link l with tx := .idle })) ∧
    (∀ c, (s.link l).tx = .finishing c →
      exec (.characterInProgressCompleted l) s = .next (s.setLink l { s.link l with tx := .idle }))

/-! ### The request executor (02) -/

/-- Arbitration (R25, R26): the executor serves a link only when its head request is eligible; when one link alone is eligible
that one is served, and when both are, the one not served last; after a take the request has left its queue and its link is
the last served. -/
def Obligations.RoundRobinServesOneLink : Prop :=
  ∀ (s : State) (l : Link),
    (serves s l = true → eligible s l = true) ∧
    (eligible s l = true → eligible s l.other = false → serves s l = true ∧ serves s l.other = false) ∧
    (eligible s l = true → eligible s l.other = true → (serves s l = true ↔ s.executor.lastServed ≠ l)) ∧
    (∀ f q, (s.link l).queue = f :: q →
      (eligible s l = true ↔ frameWantsReply f = false ∨ (s.link l).tx = .idle ∨ (s.link l).tx = .tail) ∧
      popTaken l s = (s.setLink l { s.link l with queue := q }).withExecutor { s.executor with lastServed := l }) ∧
    ((s.link l).queue = [] → eligible s l = false)

/-- The reply of a request taken (R18, R19, R28): none is made unless one is wanted and the frame is no broadcast; a wanted
reply waits out the lead when the transmitter is IDLE, REPLY_DRIVE is enabled and the lead time is not 0, and is otherwise
sent at once, with the pending error set, under the node address then in force (log 34). That it is READ_STATUS's reply,
refused or not, that lifts the quarantine is the model's choice (log 19). Nothing but the source link's transmitter, error set
and quarantine changes. -/
def Obligations.RepliesGoToTheSourceLink : Prop :=
  ∀ (rq : Request) (outcome : ReplyOutcome) (data : List Byte) (s : State),
    let ls := s.link rq.src
    let r : Reply :=
      { address := ls.settings.node, tag := rq.tag, outcome := outcome, data := data, ofStatus := rq.name == 0x26 }
    let t := finishTake rq { outcome := outcome, data := data, state := s }
    ((rq.replyWanted = false ∨ rq.broadcast = true) → t = s) ∧
    (rq.replyWanted = true → rq.broadcast = false →
      (ls.tx = .idle ∧ replyDriveEnabled rq.src s = true ∧ ls.settings.lead ≠ 0 →
        t = s.setLink rq.src { ls with tx := .lead r }) ∧
      (¬(ls.tx = .idle ∧ replyDriveEnabled rq.src s = true ∧ ls.settings.lead ≠ 0) →
        t = s.setLink rq.src
          { ls with
            tx := .sending (encodeFrame (byteOf ls.settings.node) 0x04
              ([rq.tag, outcome.code] ++ be2 ls.errors.toNat ++ data)) [charBits ls.settings.parity 0xC3]
            errors := 0
            quarantined := ls.quarantined && rq.name != 0x26 }))

/-- Refusals (R27, R32, R194), for every request but CONTROL taken from the head of a queue: the command answers the take of
its handler; with arguments of another length it answers LENGTH; with the right length, when the source link may not write the
class of the request, PERMISSION; and when the handler refuses, no state of the part has changed and the data are the number
of the failed check for VALIDATION and empty for every other reason. WRITE_MAP's length follows its count, and a WRITE_TEST
whose count is not 60 is refused with LENGTH. A CONTROL of another length than 6 is refused with LENGTH by any of its six
rows' commands (that any of them takes it is the model's choice, log 4), and a refused CONTROL changes nothing either. -/
def Obligations.RefusedRequestsChangeNothing : Prop :=
  ∀ (src : Link) (pins : PinIn) (wire : WireIn) (s : State) (rq : Request),
    let s1 := popTaken src s
    let refused (r : Reason) : Out := .next (finishTake rq { outcome := .refused r, data := [], state := s1 })
    let barred (c : PermClass) : Prop := src ≠ s.executor.privileged ∧ hasBit s.executor.permissions c.bit = false
    let unchanged (an : Answer) : Prop := ∀ r, an.outcome = .refused r →
      an.state = s1 ∧ an.data = (match r with | .validation n => [byteOf n] | _ => [])
    (∀ row ∈ requestRows src pins wire, Takes row.name src s rq →
      exec row.command s = .next (finishTake rq (row.handler rq s1)) ∧ unchanged (row.handler rq s1) ∧
      ∀ n, row.length = some n →
        (rq.args.length ≠ n → exec row.command s = refused .length) ∧
        (rq.args.length = n → ∀ c, row.cls = some c → barred c → exec row.command s = refused .permission)) ∧
    (Takes 0x10 src s rq →
      (rq.args.length ≠ 2 + 4 * rq.num 1 → exec (.writeMap src) s = refused .length) ∧
      (rq.args.length = 2 + 4 * rq.num 1 → barred .maps → exec (.writeMap src) s = refused .permission)) ∧
    (Takes 0x14 src s rq →
      (rq.args.length ≠ 61 ∨ rq.num 0 ≠ 60 → exec (.writeTest src) s = refused .length) ∧
      (rq.args.length = 61 → rq.num 0 = 60 → barred .overrides → exec (.writeTest src) s = refused .permission)) ∧
    (Takes 0x07 src s rq → rq.args.length ≠ 6 → ∀ c ∈ controlCommands src, exec c s = refused .length) ∧
    unchanged (controlAnswer rq s1)

/-- The reasons of the own checks, each in its place in the order the request's rule gives (R21, R22, R33, R36, R37, R59, R62,
R81, R82, R84, R85, R87, R104, R108, R109, R124, R135, R136, R147, R186, R191): which condition refuses which request with
which reason, once its length and its class have passed. -/
def Obligations.RequestsNameTheirReason : Prop :=
  ∀ (pins : PinIn) (wire : WireIn) (rq : Request) (s : State),
    let gives (an : Answer) (r : Reason) : Prop := an.outcome = .refused r
    let day := rq.num2 0
    let minute := rq.num4 0
    let base := s.timeScale.pendingBalance.getD s.timeScale.balance
    (linkOf (rq.arg 0) = none ∨ parityOf (rq.arg 2) = none ∨ boolOf (rq.arg 3) = none → gives (setLinkAnswer wire rq s) .range) ∧
    (linkOf (rq.arg 0) = some rq.src → gives (disableLinkAnswer wire rq s) .state) ∧
    (linkOf (rq.arg 0) = some rq.src.other → rq.src ≠ s.executor.privileged →
      gives (disableLinkAnswer wire rq s) .permission ∧ gives (enableLinkAnswer wire rq s) .permission) ∧
    (rq.src = s.executor.privileged → (rq.classSet 0 &&& rq.classSet 2 ≠ 0 → gives (setPermissionsAnswer rq s) .state) ∧
      (rq.classSet 0 &&& rq.classSet 2 = 0 → (rq.classSet 0 ||| rq.classSet 2).getLsbD 11 = true →
        gives (setPermissionsAnswer rq s) .range)) ∧
    (rq.src ≠ s.executor.privileged → rq.classSet 0 ≠ 0 ∨ rq.classSet 2 ≠ 0 →
      gives (setPermissionsAnswer rq s) .permission) ∧
    (s.executor.restartPending ≠ none → gives (softRestartAnswer rq s) .pending) ∧
    (s.executor.restartPending = none → s.carrier.state ≠ .off ∨ rq.replyWanted = false ∨ rq.broadcast = true →
      gives (softRestartAnswer rq s) .state) ∧
    (linkOf (rq.arg 2) = none ∨ boolOf (rq.arg 3) = none ∨ boolOf (rq.arg 4) = none →
      gives (setTimebaseAnswer rq s) .range) ∧
    (s.carrier.code ≠ .off → gives (setBalanceAnswer rq s) .state ∧ gives (setCivilAnswer rq s) .state) ∧
    (s.carrier.code = .off → (rq.signed 0 < -32 ∨ sumsInRange (rq.signed 0) s.rules.leaps = false →
        gives (setBalanceAnswer rq s) .range) ∧
      (rq.signed 0 < -48 ∨ 56 < rq.signed 0 ∨ boolOf (rq.arg 1) = none → gives (setCivilAnswer rq s) .range)) ∧
    (36524 < day ∨ boolOf (rq.arg 2) = none → gives (addLeapAnswer rq s) .range) ∧
    (day ≤ 36524 → boolOf (rq.arg 2) ≠ none → ((∃ x ∈ s.rules.leaps, x.day = day) → gives (addLeapAnswer rq s) .state) ∧
      ((∀ x ∈ s.rules.leaps, x.day ≠ day) → (4 ≤ s.rules.leaps.length → gives (addLeapAnswer rq s) .listFull) ∧
        (s.rules.leaps.length < 4 → leapLate s (1440 * day + 1439) = true → gives (addLeapAnswer rq s) .late) ∧
        (s.rules.leaps.length < 4 → leapLate s (1440 * day + 1439) = false → s.rules.leaps.Pairwise (·.day < ·.day) →
          ∀ e : LeapEntry, e.day = day → boolOf (rq.arg 2) = some (!e.insert) →
          sumsInRange base (s.rules.leaps.filter (·.day < day) ++ e :: s.rules.leaps.filter (day < ·.day)) = false →
          gives (addLeapAnswer rq s) .range))) ∧
    ((∀ x ∈ s.rules.leaps, x.day ≠ day) → gives (deleteLeapAnswer rq s) .notFound) ∧
    ((∃ x ∈ s.rules.leaps, x.day = day) → (leapLate s (1440 * day + 1439) = true → gives (deleteLeapAnswer rq s) .late) ∧
      (leapLate s (1440 * day + 1439) = false → sumsInRange base (s.rules.leaps.filter (·.day ≠ day)) = false →
        gives (deleteLeapAnswer rq s) .range)) ∧
    (52595999 < minute ∨ rq.signed 4 < -48 ∨ 56 < rq.signed 4 ∨ boolOf (rq.arg 5) = none →
      gives (addTransitionAnswer rq s) .range) ∧
    (minute ≤ 52595999 → -48 ≤ rq.signed 4 → rq.signed 4 ≤ 56 → boolOf (rq.arg 5) ≠ none →
      (transitionLate s minute = true → gives (addTransitionAnswer rq s) .late) ∧
      (transitionLate s minute = false → (∀ x ∈ s.rules.transitions, x.minute ≠ minute) →
        16 ≤ s.rules.transitions.length → gives (addTransitionAnswer rq s) .listFull)) ∧
    ((∀ x ∈ s.rules.transitions, x.minute ≠ minute) → gives (deleteTransitionAnswer rq s) .notFound) ∧
    ((∃ x ∈ s.rules.transitions, x.minute = minute) → transitionLate s minute = true →
      gives (deleteTransitionAnswer rq s) .late) ∧
    (s.assembler.commitPending = true → gives (writeMapOwn rq s) .pending ∧ gives (commitMapAnswer rq s) .pending) ∧
    (s.assembler.commitPending = false → gives (cancelCommitAnswer rq s) .notFound ∧
      (rq.num 1 = 0 ∨ 61 < rq.num 0 + rq.num 1 ∨ entriesOf (rq.args.drop 2) = none → gives (writeMapOwn rq s) .range)) ∧
    (symbolsOf (rq.args.drop 1) = none → gives (writeTestOwn rq s) .range) ∧
    (∀ record, symbolsOf (rq.args.drop 1) = some record → hasTestEntry s.stack = true →
      (record[0]? ≠ some .mark → gives (writeTestOwn rq s) (.validation 1)) ∧
      (record[0]? = some .mark → record[59]? ≠ some .nil → gives (writeTestOwn rq s) (.validation 2))) ∧
    (overrideValueOf (rq.arg 0) (rq.arg 1) (rq.arg 2) = none → gives (pushOverrideAnswer rq s) .range) ∧
    (∀ value present, overrideValueOf (rq.arg 0) (rq.arg 1) (rq.arg 2) = some value → boolOf (rq.arg 3) = some present →
      (4 ≤ s.stack.length → gives (pushOverrideAnswer rq s) .stackFull) ∧
      (s.stack.length < 4 → value = .content true →
        (s.assembler.test[0]? ≠ some .mark → gives (pushOverrideAnswer rq s) (.validation 1)) ∧
        (s.assembler.test[0]? = some .mark → s.assembler.test[59]? ≠ some .nil →
          gives (pushOverrideAnswer rq s) (.validation 2)))) ∧
    (3 < rq.num 0 → gives (writeProfileAnswer rq s) .range) ∧
    (8 < rq.num 0 → gives (writeLinesAnswer pins rq s) .range) ∧
    (∀ n, lineOf (rq.arg 0) = some n → 2 ^ (functionsOf n).length ≤ rq.num 1 ∨ boolOf (rq.arg 2) = none ∨
        boolOf (rq.arg 3) = none ∨ boolOf (rq.arg 4) = none ∨ pullOf (rq.arg 5) = none ∨ edgeOf (rq.arg 6) = none →
      gives (writeLinesAnswer pins rq s) .range) ∧
    (boolOf (rq.arg 2) = none ∨ 64 < rq.num2 0 → gives (readStatusAnswer rq s) .range) ∧
    (3 < rq.num 2 → gives (readMapAnswer rq s) .range ∧ gives (readProfileAnswer rq s) .range)

/-- Reads under a return limit (R35, 2.10): an offset past the image is refused with RANGE; otherwise the reply holds the next
offset and the bytes up to the limit with MORE, or the image's length and its remaining bytes with DONE; and a chain of reads
brings the whole image. -/
def Obligations.ReadChainsBringTheImage : Prop :=
  ∀ (image : List Byte) (limit : Nat) (s : State), 8 ≤ limit → limit ≤ 192 → image.length < 65536 →
    (∀ o, image.length < o → (readAnswer image o limit s).outcome = .refused .range) ∧
    (∀ o, o + limit < image.length →
      readAnswer image o limit s =
        { outcome := .more, data := be2 (o + limit) ++ (image.drop o).take limit, state := s }) ∧
    (∀ o, o ≤ image.length → image.length ≤ o + limit →
      readAnswer image o limit s = { outcome := .done, data := be2 image.length ++ image.drop o, state := s }) ∧
    readChain image limit s (image.length + 1) 0 = image

/-! ### Requests on links, rights and the part (01, 02) -/

/-- SET_LINK, SET_RETURN_LIMIT, DISABLE_LINK and ENABLE_LINK taken (R20 to R22, R36, R49): the settings with numbers clamped
(the return limit of the target is not among them), while a character whose start bit has begun on either wire of the target
keeps the parity it began with (what has begun comes with the command, logs 9 and 42), unless it is one not to be taken; the
return limit of the source link; a target disabled, with its monitor DOWN, no longer the active source, and a restart awaited
there given up; a target enabled, HUNT and HUNTING, of which the character under way, if there is one, is not to be taken
(R22). -/
def Obligations.LinkRequestsTakeEffect : Prop :=
  ∀ (src : Link) (wire : WireIn) (s : State) (rq : Request),
    let s1 := popTaken src s
    (∀ t parity stop, Takes 0x01 src s rq → rq.args.length = 6 → permitted s src .link = true →
      linkOf (rq.arg 0) = some t → parityOf (rq.arg 2) = some parity → boolOf (rq.arg 3) = some stop →
      exec (.setLink ⟨src, wire⟩) s = .next (finishTake rq (carriedOut
        (decide (rq.num 1 < 1 ∨ 63 < rq.num 1 ∨ 15 < rq.num 4 ∨ 15 < rq.num 5))
        (s1.setLink t
          { s1.link t with
            settings :=
              { node := max 1 (min 63 (rq.num 1)), parity := parity, stopOnError := stop,
                returnLimit := (s.link t).settings.returnLimit, lead := min 15 (rq.num 4),
                tail := min 15 (rq.num 5) }
            tx := (s.link t).tx.withBegun (s.link t).settings.parity wire.begun
            oldParity := if (s.link t).enabled = true ∧ wire.underWay = true ∧ (s.link t).skipping = false then
              some ((s.link t).oldParity.getD (s.link t).settings.parity) else none
            skipping := (s.link t).skipping && wire.underWay })))) ∧
    (Takes 0x02 src s rq → rq.args.length = 1 → permitted s src .link = true →
      exec (.setReturnLimit src) s = .next (finishTake rq (carriedOut (decide (rq.num 0 < 8 ∨ 192 < rq.num 0))
        (s1.setLink src
          { s1.link src with
            settings := { (s.link src).settings with returnLimit := max 8 (min 192 (rq.num 0)) } })))) ∧
    (Takes 0x03 src s rq → rq.args.length = 1 → linkOf (rq.arg 0) = some src.other → src = s.executor.privileged →
      (s.link src.other).enabled = true →
      exec (.disableLink ⟨src, wire⟩) s = .next (finishTake rq (carriedOut false (noteLimited s1
        { s1 with
          links := s1.links.set src.other
            { s.link src.other with
              enabled := false, rx := .hunt, latch := none, queue := [], errors := 0, quarantined := false,
              oldParity := none, skipping := false
              tx := (s.link src.other).tx.dropped (s.link src.other).settings.parity wire.begun }
          timebase :=
            { s.timebase with
              monitors := s.timebase.monitors.set src.other
                { state := .down, good := 0, last := none, timer := none, missed := 0, missDue := false, waiting := false }
              active := if s.timebase.active = some src.other then none else s.timebase.active }
          executor :=
            { s1.executor with
              restartPending :=
                if s.executor.restartPending = some src.other then none else s.executor.restartPending } })))) ∧
    (Takes 0x04 src s rq → rq.args.length = 1 → linkOf (rq.arg 0) = some src.other → src = s.executor.privileged →
      (s.link src.other).enabled = false →
      exec (.enableLink ⟨src, wire⟩) s = .next (finishTake rq (carriedOut false
        { s1 with
          links := s1.links.set src.other { s.link src.other with enabled := true, rx := .hunt, skipping := wire.underWay }
          timebase :=
            { s.timebase with
              monitors := s.timebase.monitors.set src.other
                { state := .hunting, good := 0, last := none, timer := none, missed := 0, missDue := false,
                  waiting := false } } })))

/-- SET_PERMISSIONS, SOFT_RESTART and UNKNOWN_REQUEST taken (R27, R33, R37): the privileged link grants and revokes disjoint
sets without PERMISSIONS, and either link may ask for the map; an answered restart with the carrier OFF is awaited on the
source link; an unknown name is answered UNKNOWN_REQUEST, and a payload without the fixed fields leaves the queue without a
reply. That bits 12 to 15 of a class set are ignored, by the mask 0FFFh, is the model's choice (log 17). -/
def Obligations.RightsAndRestartRequestsTakeEffect : Prop :=
  ∀ (src : Link) (s : State) (rq : Request),
    let s1 := popTaken src s
    (∀ grant revoke : BitVec 16, Takes 0x05 src s rq → rq.args.length = 4 →
      grant = BitVec.ofNat 16 (rq.num2 0) &&& 0x0FFF → revoke = BitVec.ofNat 16 (rq.num2 2) &&& 0x0FFF →
      (src = s.executor.privileged → grant &&& revoke = 0 → (grant ||| revoke).getLsbD 11 = false →
        ∀ map : BitVec 16, map = (s.executor.permissions ||| grant) &&& ~~~revoke →
        exec (.setPermissions src) s = .next (finishTake rq
          { outcome := .done, data := be2 map.toNat ++ [byteOf (Link.code src)]
            state := s1.withExecutor { s1.executor with permissions := map } })) ∧
      (src ≠ s.executor.privileged → grant = 0 → revoke = 0 →
        exec (.setPermissions src) s = .next (finishTake rq
          { outcome := .done
            data := be2 s.executor.permissions.toNat ++ [byteOf (Link.code s.executor.privileged)]
            state := s1 }))) ∧
    (Takes 0x06 src s rq → rq.args.length = 0 → permitted s src .restart = true → s.executor.restartPending = none →
      s.carrier.state = .off → rq.replyWanted = true → rq.broadcast = false →
      exec (.softRestart src) s = .next (finishTake rq (carriedOut false
        (s1.withExecutor { s1.executor with restartPending := some src })))) ∧
    (Takes rq.name src s rq → ¬((1 ≤ rq.name.toNat ∧ rq.name.toNat ≤ 27) ∨ (32 ≤ rq.name.toNat ∧ rq.name.toNat ≤ 38)) →
      exec (.unknownRequest src) s = .next (finishTake rq
        { outcome := .refused .unknownRequest, data := [], state := s1 })) ∧
    (∀ f q, (s.link src).queue = f :: q → serves s src = true → f.payload.length < 3 →
      exec (.unknownRequest src) s = .next s1)

/-- The soft restart (R23, R38, R39, R78, R95, R113, R133, R145, R163, R175, R193): at the last stop bit of the awaited reply
every block takes its soft-restart values; settings, rights, lists, balance, maps, tables and line configuration stay, and
time, monitors, words, stack, carrier and code, counters and flags start anew. That the missing seconds, waiting pulses and
ramp ends of the step not yet taken are gone, and the filter changes not yet taken stay, is the model's choice (logs 23, 41
and, for the end of a rise, 5). A reply in SENDING on the other link ends with its character in progress (log 36), which comes
with the command (log 42). -/
def Obligations.SoftRestartKeepsTheTables : Prop :=
  ∀ (l : Link) (wire : WireIn) (s : State) (bytes : List Byte) (begun : List WireChar),
    (s.link l).tx = .sending bytes begun → s.executor.restartPending = some l →
    ∃ t, exec (.replyComplete ⟨l, wire⟩) s = .next t ∧
      (∀ x, (t.link x).enabled = (s.link x).enabled ∧ (t.link x).settings = (s.link x).settings ∧
        (t.link x).rx = .hunt ∧ (t.link x).latch = none ∧ (t.link x).queue = [] ∧ (t.link x).errors = 0 ∧
        (t.link x).quarantined = false ∧
        (t.monitor x) = { state := if (s.link x).enabled then .hunting else .down, good := 0, last := none, timer := none,
                          missed := 0, missDue := false, waiting := false }) ∧
      (t.link l).tx = .idle ∧
      (t.link l.other).tx = (s.link l.other).tx.dropped (s.link l.other).settings.parity wire.begun ∧
      t.executor = { s.executor with lastServed := .b, restartPending := none } ∧
      t.timebase.m = 0 ∧ t.timebase.count = none ∧ t.timebase.active = none ∧ t.timebase.holdover = 0 ∧
      t.timebase.settings = s.timebase.settings ∧ t.timeScale = { s.timeScale with label := none } ∧
      t.rules = { s.rules with lateRef := none, lastMismatch := none } ∧
      t.assembler.bank0 = s.assembler.bank0 ∧ t.assembler.bank1 = s.assembler.bank1 ∧
      t.assembler.active1 = s.assembler.active1 ∧ t.assembler.commitPending = false ∧
      t.assembler.test = s.assembler.test ∧ t.assembler.spare = s.assembler.spare ∧
      t.assembler.selection = s.assembler.selection ∧ t.assembler.slotSetting = s.assembler.slotSetting ∧
      t.assembler.slotInForce = s.assembler.slotSetting ∧ t.assembler.assembly = none ∧
      t.assembler.pendingWord = none ∧ t.assembler.current = none ∧ t.stack = [] ∧
      t.keying.profiles = s.keying.profiles ∧
      t.keying.latch = { symbol := .nil, profile := 0, full := s.keying.profiles.p0.full, shape := none } ∧
      t.keying.j = 0 ∧ t.keying.holdSuppress = false ∧
      t.carrier = { state := .off, k := 0, rampSetting := s.carrier.rampSetting, rc := s.carrier.rampSetting,
                    fr := s.keying.profiles.p0.full, code := .off, offAfter := false, haltLatch := false,
                    rampEnd := false, justSteady := false } ∧
      (∀ n, t.line n = { s.line n with edgeFlag := false }) ∧ t.lineUnit.strobeWidth = s.lineUnit.strobeWidth ∧
      t.lineUnit.strobeSlot = s.lineUnit.strobeSlot ∧ t.lineUnit.strap = s.lineUnit.strap ∧
      t.lineUnit.strobes = { minute := none, slot := none, second := none } ∧ t.status = clearedStatus

/-! ### CONTROL (02, 07, 09, 10) -/

/-- CONTROL (R34): each of the six rows' commands takes the whole request when it gives the row's part, and any of the six
takes one that gives no part and answers it DONE, with nothing changed (that a row's command takes the whole request, and any
of them one that no row describes, is the model's choice, log 4). Of its parts, those kept (given, and of a class the source
link may write) are applied in the order carrier, code, profile select, spare, each on the state the ones before it leave; a
carrier or code part that is refused refuses the whole (a code that is neither OFF nor ON with RANGE: the model's choice, log
15); the reply reports a profile that was kept and clamped. -/
def Obligations.ControlIsTakenPartByPart : Prop :=
  ∀ (src : Link) (s : State) (rq : Request), Takes 0x07 src s rq → rq.args.length = 6 →
    let s0 := popTaken src s
    ((∀ i < 4, (rq.arg 0).getLsbD i = false) → ∀ c ∈ controlCommands src,
      exec c s = .next (finishTake rq { outcome := .done, data := [], state := s0 })) ∧
    let kept (part : Nat) (c : PermClass) : Bool := (rq.arg 0).getLsbD part && permitted s src c
    let answered (an : Answer) : Prop :=
      let after := Host.Outcome.next (finishTake rq an)
      ((rq.arg 0).getLsbD 0 = true → rq.arg 1 = 1 → exec (.controlCarrierOn src) s = after) ∧
      ((rq.arg 0).getLsbD 0 = true → rq.arg 1 = 0 → exec (.controlCarrierOff src) s = after) ∧
      ((rq.arg 0).getLsbD 1 = true → rq.arg 2 = 1 → exec (.controlCodeOn src) s = after) ∧
      ((rq.arg 0).getLsbD 1 = true → rq.arg 2 = 0 → exec (.controlCodeOff src) s = after) ∧
      ((rq.arg 0).getLsbD 2 = true → exec (.controlProfileSelect src) s = after) ∧
      ((rq.arg 0).getLsbD 3 = true → exec (.controlSpare src) s = after)
    (∀ r, (if kept 0 .carrier then carrierPart (rq.arg 1) s0 else .ok s0) = .error r → answered (refuse r s0)) ∧
    ∀ s1, (if kept 0 .carrier then carrierPart (rq.arg 1) s0 else .ok s0) = .ok s1 →
      (∀ r, (if kept 1 .code then codePart (rq.arg 2) s1 else .ok s1) = .error r → answered (refuse r s0)) ∧
      ∀ s2, (if kept 1 .code then codePart (rq.arg 2) s1 else .ok s1) = .ok s2 →
        answered (carriedOut (kept 2 .profiles && decide (3 < rq.num 3))
          (s2.withAssembler
            { s2.assembler with
              selection := if kept 2 .profiles then profileOf (rq.num 3) else s2.assembler.selection
              spare := if kept 3 .spare then (s2.assembler.spare &&& ~~~rq.arg 5) ||| (rq.arg 4 &&& rq.arg 5)
                else s2.assembler.spare }))

/-- The carrier and code parts by state (R166 to R169, R164): what ON and OFF do to carrier and code, with Rc and Fr latched
where a ramp begins, and which are refused with STATE. Only carrier control changes. -/
def Obligations.CarrierAndCodePartsByState : Prop :=
  ∀ (s : State) (c : Carrier),
    c = s.carrier →
    (c.haltLatch = true ∨ haltAsserted s = true → carrierPart 1 s = .error .state) ∧
    (c.haltLatch = false → haltAsserted s = false →
      (c.state = .off → carrierPart 1 s = .ok (s.withCarrier
        { c with state := .rising, k := 0, rc := c.rampSetting, fr := fullInForce s, rampEnd := false })) ∧
      (c.state = .falling → carrierPart 1 s = .ok (s.withCarrier { c with state := .rising, rampEnd := false })) ∧
      (c.state = .rising ∨ c.state = .steady → carrierPart 1 s = .ok s)) ∧
    (c.state = .steady → (c.code = .off ∨ c.code = .armed) → carrierPart 0 s = .ok (s.withCarrier
      { c with state := .falling, k := c.rampSetting, rc := c.rampSetting, fr := fullInForce s, code := .off,
               rampEnd := false })) ∧
    (c.state = .steady → (c.code = .running ∨ c.code = .ending) →
      carrierPart 0 s = .ok (s.withCarrier { c with code := .ending, offAfter := true })) ∧
    (c.state = .rising →
      carrierPart 0 s = .ok (s.withCarrier { c with state := .falling, code := .off, rampEnd := false })) ∧
    (c.state = .off ∨ c.state = .falling → carrierPart 0 s = .ok s ∧ codePart 1 s = .error .state) ∧
    (c.state = .rising ∨ c.state = .steady → c.code = .off →
      codePart 1 s = .ok (s.withCarrier { c with code := .armed })) ∧
    (c.state = .rising ∨ c.state = .steady → (c.code = .armed ∨ c.code = .running) → codePart 1 s = .ok s) ∧
    (c.state = .steady → c.code = .ending → c.offAfter = false →
      codePart 1 s = .ok (s.withCarrier { c with code := .running })) ∧
    (c.state = .steady → c.code = .ending → c.offAfter = true → codePart 1 s = .error .state) ∧
    (c.code = .running → codePart 0 s = .ok (s.withCarrier { c with code := .ending })) ∧
    (c.code = .armed → codePart 0 s = .ok (s.withCarrier { c with code := .off })) ∧
    (c.code = .off ∨ c.code = .ending → codePart 0 s = .ok s)

/-! ### Requests on time and lists (03, 04, 05) -/

/-- SET_TIMEBASE, SET_BALANCE, SET_CIVIL and SET_WINDOWS taken (R59, R60, R62, R87, R89): the settings clamped, with holdover
limited judged anew; the pending balance; the civil state, set only with the code OFF; the windows clamped. -/
def Obligations.TimeRequestsTakeEffect : Prop :=
  ∀ (src : Link) (s : State) (rq : Request),
    let s1 := popTaken src s
    (∀ preferred revertive accept, Takes 0x08 src s rq → rq.args.length = 9 → permitted s src .timebase = true →
      linkOf (rq.arg 2) = some preferred → boolOf (rq.arg 3) = some revertive → boolOf (rq.arg 4) = some accept →
      exec (.setTimebase src) s = .next (finishTake rq (carriedOut
        (decide (rq.num 0 < 1 ∨ 10 < rq.num 0 ∨ rq.num 1 < 2 ∨ 60 < rq.num 1 ∨ rq.num2 7 < 1 ∨ 10080 < rq.num2 7))
        (noteLimited s1 (s1.withTimebase
          { s.timebase with
            settings :=
              { window := max 1 (min 10 (rq.num 0)), qualify := max 2 (min 60 (rq.num 1)), preferred := preferred,
                revertive := revertive, acceptDegraded := accept, warn := rq.num2 5,
                limit := max 1 (min 10080 (rq.num2 7)) } }))))) ∧
    (Takes 0x09 src s rq → rq.args.length = 1 → permitted s src .rules = true → s.carrier.code = .off →
      -32 ≤ rq.signed 0 → sumsInRange (rq.signed 0) s.rules.leaps = true →
      exec (.setBalance src) s = .next (finishTake rq (carriedOut false
        (s1.withTimeScale { s.timeScale with pendingBalance := some (rq.signed 0) })))) ∧
    (∀ summer, Takes 0x0A src s rq → rq.args.length = 2 → permitted s src .rules = true → s.carrier.code = .off →
      -48 ≤ rq.signed 0 → rq.signed 0 ≤ 56 → boolOf (rq.arg 1) = some summer →
      exec (.setCivil src) s = .next (finishTake rq (carriedOut false
        (s1.withRules { s.rules with offset := rq.signed 0, summer := summer })))) ∧
    (Takes 0x0B src s rq → rq.args.length = 4 → permitted s src .rules = true →
      exec (.setWindows src) s = .next (finishTake rq (carriedOut
        (decide (rq.num2 0 < 1 ∨ 1440 < rq.num2 0 ∨ rq.num2 2 < 1 ∨ 1440 < rq.num2 2))
        (s1.withRules
          { s.rules with
            leapWindow := max 1 (min 1440 (rq.num2 0)), changeWindow := max 1 (min 1440 (rq.num2 2)) }))))

/-- The LATE tests (R80), by the late reference, or without one, for a leap entry, by the label while time is valid; and
ADD_LEAP, DELETE_LEAP, ADD_TRANSITION and DELETE_TRANSITION taken (R79 to R85): an entry whose checks pass joins its list at
its place and an entry deleted leaves it, the others keeping their order; a transition at a listed minute replaces that entry.
-/
def Obligations.ListRequestsTakeEffect : Prop :=
  (∀ (s : State) (m : Nat),
    (∀ r, s.rules.lateRef = some r → (leapLate s m = true ↔ m ≤ r) ∧ (transitionLate s m = true ↔ m ≤ r + 1)) ∧
    (s.rules.lateRef = none → transitionLate s m = false ∧
      (∀ c lab, s.timebase.count = some c → s.timeScale.label = some lab → (leapLate s m = true ↔ m ≤ lab.u / 60)) ∧
      (s.timebase.count = none → leapLate s m = false))) ∧
  ∀ (src : Link) (s : State) (rq : Request),
    let s1 := popTaken src s
    (∀ delete, Takes 0x0C src s rq → rq.args.length = 3 → permitted s src .rules = true → rq.num2 0 ≤ 36524 →
      boolOf (rq.arg 2) = some delete →
      ∀ e : LeapEntry, e = { day := rq.num2 0, insert := !delete } →
      (∀ x ∈ s.rules.leaps, x.day ≠ e.day) → s.rules.leaps.length < 4 → leapLate s (1440 * e.day + 1439) = false →
      s.rules.leaps.Pairwise (·.day < ·.day) →
      let leaps := s.rules.leaps.filter (·.day < e.day) ++ e :: s.rules.leaps.filter (e.day < ·.day)
      sumsInRange (s.timeScale.pendingBalance.getD s.timeScale.balance) leaps = true →
      exec (.addLeap src) s = .next (finishTake rq (carriedOut false (s1.withRules { s.rules with leaps := leaps })))) ∧
    (Takes 0x0D src s rq → rq.args.length = 2 → permitted s src .rules = true →
      (∃ x ∈ s.rules.leaps, x.day = rq.num2 0) → leapLate s (1440 * rq.num2 0 + 1439) = false →
      let leaps := s.rules.leaps.filter (·.day ≠ rq.num2 0)
      sumsInRange (s.timeScale.pendingBalance.getD s.timeScale.balance) leaps = true →
      exec (.deleteLeap src) s = .next (finishTake rq (carriedOut false
        (s1.withRules { s.rules with leaps := leaps })))) ∧
    (∀ summer, Takes 0x0E src s rq → rq.args.length = 6 → permitted s src .rules = true → rq.num4 0 ≤ 52595999 →
      -48 ≤ rq.signed 4 → rq.signed 4 ≤ 56 → boolOf (rq.arg 5) = some summer → transitionLate s (rq.num4 0) = false →
      ((∃ x ∈ s.rules.transitions, x.minute = rq.num4 0) ∨ s.rules.transitions.length < 16) →
      s.rules.transitions.Pairwise (·.minute < ·.minute) →
      ∀ e : Transition, e = { minute := rq.num4 0, offset := rq.signed 4, summer := summer } →
      exec (.addTransition src) s = .next (finishTake rq (carriedOut false (s1.withRules
        { s.rules with
          transitions := s.rules.transitions.filter (·.minute < e.minute)
            ++ e :: s.rules.transitions.filter (e.minute < ·.minute) })))) ∧
    (Takes 0x0F src s rq → rq.args.length = 4 → permitted s src .rules = true →
      (∃ x ∈ s.rules.transitions, x.minute = rq.num4 0) → transitionLate s (rq.num4 0) = false →
      exec (.deleteTransition src) s = .next (finishTake rq (carriedOut false (s1.withRules
        { s.rules with transitions := s.rules.transitions.filter (·.minute ≠ rq.num4 0) }))))

/-! ### Requests on maps, overrides, profiles and lines (06 to 11) -/

/-- The validation checks (R107): a bank passes when all seven hold, and otherwise its number is the first that fails.
WRITE_MAP, COMMIT_MAP and CANCEL_COMMIT taken (R103, R104, R107 to R109): the entries go into the shadow from their start
position on and nowhere else; a shadow that passes every check gets the commit-pending flag, and one that fails is refused
with the number of its first failing check; a cancel clears the flag. -/
def Obligations.MapRequestsTakeEffect : Prop :=
  (∀ bank : List MapEntry,
    let kindAt (i : Nat) : Option MapKind := (bank[i]?).map (·.kind)
    let holds : Nat → Prop
      | 1 => kindAt 0 = some .mark
      | 2 => kindAt 59 = some .nil
      | 3 => kindAt 60 = some .const0 ∨ kindAt 60 = some .const1 ∨ kindAt 60 = some .nil
      | 4 => ∀ e ∈ bank, (e.kind = .field → e.weight.toNat ∈ validWeights e.code.toNat) ∧
          (e.kind = .flag → e.code.toNat ≤ 4)
      | 5 => ∀ e ∈ bank, e.kind = .parity ∨ e.kind = .mark ∨ e.kind = .nil → e.members = 0
      | 6 => ∀ e ∈ bank, e.kind = .parity → ∃ i < 59, ∃ m, bank[i]? = some m ∧ m.memberOf e.parityGroup = true
      | 7 => ∀ e ∈ bank, (e.kind = .parity → e.parityGroup ≤ 7) ∧ ∀ g ∈ e.memberGroups, g ≤ 7
      | _ => True
    (firstFailingCheck bank = none ↔ ∀ n, holds n) ∧
      ∀ n, firstFailingCheck bank = some n ↔ ¬holds n ∧ ∀ k < n, holds k) ∧
  ∀ (src : Link) (s : State) (rq : Request),
    let s1 := popTaken src s
    let a := s.assembler
    (∀ entries, Takes 0x10 src s rq → rq.args.length = 2 + 4 * rq.num 1 → permitted s src .maps = true →
      a.commitPending = false → 1 ≤ rq.num 1 → rq.num 0 + rq.num 1 ≤ 61 → entriesOf (rq.args.drop 2) = some entries →
      a.bank0.length = 61 → a.bank1.length = 61 →
      ∃ bank : List MapEntry, bank.length = 61 ∧
        (∀ i < 61, bank[i]? =
          if rq.num 0 ≤ i ∧ i < rq.num 0 + rq.num 1 then entries[i - rq.num 0]? else a.shadowBank[i]?) ∧
        exec (.writeMap src) s = .next (finishTake rq (carriedOut false (s1.withAssembler
          (if a.active1 then { a with bank0 := bank } else { a with bank1 := bank }))))) ∧
    (Takes 0x12 src s rq → rq.args.length = 0 → permitted s src .maps = true → a.commitPending = false →
      (firstFailingCheck a.shadowBank = none →
        exec (.commitMap src) s = .next (finishTake rq (carriedOut false
          (s1.withAssembler { a with commitPending := true })))) ∧
      (∀ n, firstFailingCheck a.shadowBank = some n →
        exec (.commitMap src) s = .next (finishTake rq
          { outcome := .refused (.validation n), data := [byteOf n], state := s1 }))) ∧
    (Takes 0x13 src s rq → rq.args.length = 0 → permitted s src .maps = true → a.commitPending = true →
      exec (.cancelCommit src) s = .next (finishTake rq (carriedOut false
        (s1.withAssembler { a with commitPending := false }))))

/-- COPY_MAP (R105): refused with PENDING while a commit is pending; otherwise the shadow takes all entries of the active
bank, so that both banks hold equal maps, and the indicator and the active bank are not changed. -/
def Obligations.CopyMapCopiesActiveToShadow : Prop :=
  ∀ (src : Link) (s : State) (rq : Request), Takes 0x11 src s rq → rq.args.length = 0 → permitted s src .maps = true →
    let s1 := popTaken src s
    (s.assembler.commitPending = true →
      exec (.copyMap src) s = .next (finishTake rq { outcome := .refused .pending, data := [], state := s1 })) ∧
    (s.assembler.commitPending = false →
      ∃ a : Assembler,
        exec (.copyMap src) s = .next (finishTake rq { outcome := .done, data := [], state := s1.withAssembler a }) ∧
        a.bank0 = s.assembler.activeBank ∧ a.bank1 = s.assembler.activeBank ∧ a.bank0 = a.bank1 ∧
        a.active1 = s.assembler.active1 ∧ a.activeBank = s.assembler.activeBank ∧
        a = { s.assembler with bank0 := a.bank0, bank1 := a.bank1 })

/-- WRITE_TEST, PUSH_OVERRIDE and POP_OVERRIDE taken (R124, R134 to R137): the record is replaced when no TEST entry stands on
the stack or the record begins with MARK and ends with NIL; the new entry goes on top with value and minutes clamped, whatever
the flag-value byte where the aspect is not FLAG (the model's choice, log 48); the top entry leaves. -/
def Obligations.OverrideRequestsTakeEffect : Prop :=
  ∀ (src : Link) (s : State) (rq : Request),
    let s1 := popTaken src s
    (∀ record, Takes 0x14 src s rq → rq.args.length = 61 → rq.num 0 = 60 → permitted s src .overrides = true →
      symbolsOf (rq.args.drop 1) = some record →
      (hasTestEntry s.stack = false ∨ (record[0]? = some .mark ∧ record[59]? = some .nil)) →
      exec (.writeTest src) s = .next (finishTake rq (carriedOut false
        (s1.withAssembler { s.assembler with test := record })))) ∧
    (∀ value present, Takes 0x15 src s rq → rq.args.length = 6 → permitted s src .overrides = true →
      overrideValueOf (rq.arg 0) (rq.arg 1) (rq.arg 2) = some value → boolOf (rq.arg 3) = some present →
      s.stack.length < 4 →
      (value ≠ .content true ∨ (s.assembler.test[0]? = some .mark ∧ s.assembler.test[59]? = some .nil)) →
      exec (.pushOverride src) s = .next (finishTake rq (carriedOut
        (decide ((rq.arg 0 = 1 ∧ 3 < rq.num 1) ∨ (present = true ∧ (rq.num2 4 < 1 ∨ 1440 < rq.num2 4))))
        (s1.withStack
          ({ value := value, remaining := if present then some (max 1 (min 1440 (rq.num2 4))) else none,
             link := src, mark := false } :: s.stack))))) ∧
    (∀ top rest, Takes 0x16 src s rq → rq.args.length = 0 → permitted s src .overrides = true → s.stack = top :: rest →
      exec (.popOverride src) s = .next (finishTake rq (carriedOut false (s1.withStack rest)))) ∧
    (Takes 0x16 src s rq → rq.args.length = 0 → permitted s src .overrides = true → s.stack = [] →
      exec (.popOverride src) s = .next (finishTake rq { outcome := .refused .stackEmpty, data := [], state := s1 }))

/-- REMOVE_OVERRIDE (R138): a position above 3 is refused with RANGE, one at or past the depth with NOT_FOUND; otherwise the
entry at that position leaves and the others keep their order, at position 0 as POP_OVERRIDE does. -/
def Obligations.RemoveOverrideByPosition : Prop :=
  ∀ (src : Link) (s : State) (rq : Request), Takes 0x17 src s rq → rq.args.length = 1 →
    permitted s src .overrides = true →
    let s1 := popTaken src s
    (3 < rq.num 0 →
      exec (.removeOverride src) s = .next (finishTake rq { outcome := .refused .range, data := [], state := s1 })) ∧
    (rq.num 0 ≤ 3 → s.stack.length ≤ rq.num 0 →
      exec (.removeOverride src) s = .next (finishTake rq { outcome := .refused .notFound, data := [], state := s1 })) ∧
    (rq.num 0 ≤ 3 → rq.num 0 < s.stack.length →
      exec (.removeOverride src) s = .next (finishTake rq (carriedOut false
        (s1.withStack (s.stack.take (rq.num 0) ++ s.stack.drop (rq.num 0 + 1)))))) ∧
    (rq.num 0 = 0 → ∀ top rest, s.stack = top :: rest →
      exec (.removeOverride src) s = .next (finishTake rq (popOverrideAnswer rq s1)))

/-- The relations of a profile (R147): low < F, then Rd ≤ Ldip, then Ldip + Ru ≤ 950, each in all three shapes; the number of
a profile's fault is the first that fails. WRITE_PROFILE, SET_RAMP and SET_ASSEMBLY_SLOT taken (R114, R146, R147, R164): a
profile whose clamped values satisfy the relations replaces the indexed one, which is then in its ranges, and one that fails
is refused with the number of the first failing relation; the ramp length setting and the assembly slot setting, clamped. The
latch, the ramp in progress and the slot in force stay. -/
def Obligations.ShapeAndSlotRequestsTakeEffect : Prop :=
  (∀ p : Profile,
    let holds : Nat → Prop
      | 1 => ∀ d ∈ [p.zero, p.one, p.mark], d.low < p.full
      | 2 => ∀ d ∈ [p.zero, p.one, p.mark], d.rd ≤ d.ldip
      | 3 => ∀ d ∈ [p.zero, p.one, p.mark], d.ldip + d.ru ≤ 950
      | _ => True
    (profileFault p = none ↔ ∀ n, holds n) ∧ ∀ n, profileFault p = some n ↔ ¬holds n ∧ ∀ k < n, holds k) ∧
  ∀ (src : Link) (s : State) (rq : Request),
    let s1 := popTaken src s
    (∀ i : Fin 4, Takes 0x18 src s rq → rq.args.length = 21 → permitted s src .profiles = true → rq.num 0 = i.val →
      let p := clampProfile rq.profile
      (profileFault p = none → p.Sound ∧
        exec (.writeProfile src) s = .next (finishTake rq (carriedOut (decide (p ≠ rq.profile))
          (s1.withKeying { s.keying with profiles := s.keying.profiles.set i p })))) ∧
      (∀ n, profileFault p = some n →
        exec (.writeProfile src) s = .next (finishTake rq
          { outcome := .refused (.validation n), data := [byteOf n], state := s1 }))) ∧
    (Takes 0x19 src s rq → rq.args.length = 2 → permitted s src .carrier = true →
      exec (.setRamp src) s = .next (finishTake rq (carriedOut (decide (rq.num2 0 < 100 ∨ 10000 < rq.num2 0))
        (s1.withCarrier { s.carrier with rampSetting := max 100 (min 10000 (rq.num2 0)) })))) ∧
    (Takes 0x1A src s rq → rq.args.length = 1 → permitted s src .code = true →
      exec (.setAssemblySlot src) s = .next (finishTake rq (carriedOut (decide (rq.num 0 < 30 ∨ 57 < rq.num 0))
        (s1.withAssembler { s.assembler with slotSetting := max 30 (min 57 (rq.num 0)) }))))

/-- WRITE_LINES taken (R176, R178, R186): for a line, the settings carried replace the line's own, with the filter time
clamped, and the settings of the other lines stay; a line that becomes an input starts its filter from the level found, and no
edge is made; on a line that stays an input the filtered level stays, and a change of invert is an edge of the level, which
sets the edge flag when the edge select just written chooses it (log 21) and on L6, rising, with the route standing before and
after, is a pulse handed over (R179, R184; a choice of the model where the route changes too, log 44, and where one handed
over still waits, with which it is one, log 50); without such a change the flag stays. Settings equal to those an input line
holds change nothing. For STROBES, width and slot, clamped. -/
def Obligations.WriteLinesReplacesSettings : Prop :=
  ∀ (src : Link) (pins : PinIn) (s : State) (rq : Request), Takes 0x1B src s rq → rq.args.length = 8 →
    permitted s src .lines = true →
    let s1 := popTaken src s
    (∀ n w, lineOf (rq.arg 0) = some n → rq.lineSettings n = some w →
      let t := applyLineSettings n w pins s1
      exec (.writeLines src pins) s = .next (finishTake rq (carriedOut (decide (15 < rq.num 7)) t)) ∧
      w.enables = rq.arg 1 ∧ w.filter = min 15 (rq.num 7) ∧
      ((t.line n).enables, (t.line n).dirOut, (t.line n).level, (t.line n).invert) =
        (w.enables, w.dirOut, w.level, w.invert) ∧
      ((t.line n).pull, (t.line n).edge, (t.line n).filter) = (w.pull, w.edge, w.filter) ∧
      (∀ m, m ≠ n → t.line m = s.line m) ∧
      (isOutput s n = true → isOutput t n = false →
        (t.line n).filtered = pinFound pins n w.pull ∧ (t.line n).run = 0 ∧ (t.line n).edgeFlag = (s.line n).edgeFlag) ∧
      (isOutput s n = false → isOutput t n = false →
        let moved := (s.line n).invert ^^ w.invert
        let rising := (s.line n).filtered ^^ w.invert
        (t.line n).filtered = (s.line n).filtered ∧ (t.line n).run = (s.line n).run ∧
        (t.line n).edgeFlag = ((s.line n).edgeFlag || moved && (w.edge == .both || (w.edge == .rising && rising) ||
          (w.edge == .falling && !rising))) ∧
        t.lineUnit.l6Pulse = (s.lineUnit.l6Pulse || moved && n == .l6 && routedL6 s && routedL6 t && rising)) ∧
      (isOutput t n = true → (t.line n).edgeFlag = (s.line n).edgeFlag ∧ t.lineUnit.l6Pulse = s.lineUnit.l6Pulse) ∧
      ((s.line n).withSettings w = s.line n → isOutput s n = false → t = s1)) ∧
    (rq.arg 0 = 8 →
      exec (.writeLines src pins) s = .next (finishTake rq (carriedOut
        (decide (rq.num2 1 < 1 ∨ 500 < rq.num2 1 ∨ 60 < rq.num 3))
        (s1.withLineUnit
          { s.lineUnit with strobeWidth := max 1 (min 500 (rq.num2 1)), strobeSlot := min 60 (rq.num 3) }))))

/-! ### Reads (05 to 09, 11, 12) -/

/-- READ_MAP, READ_PROFILE, READ_LISTS, READ_STACK, READ_WORD and READ_LINES taken at an offset within the image (R35, R86,
R106, R132, R139, R148, R187, 12.8): the image of the object as it stands, of the length 12.8 gives it, is cut at the return
limit, and nothing of the part changes but the source link's queue and the last link served. -/
def Obligations.ReadsReturnTheImages : Prop :=
  ∀ (src : Link) (s : State) (rq : Request) (image : List Byte),
    let o := rq.num2 0
    let limit := (s.link src).settings.returnLimit
    let answered := Host.Outcome.next (finishTake rq
      (if o + limit < image.length then
        { outcome := .more, data := be2 (o + limit) ++ (image.drop o).take limit, state := popTaken src s }
      else { outcome := .done, data := be2 image.length ++ image.drop o, state := popTaken src s }))
    (∀ bank1, Takes 0x20 src s rq → rq.args.length = 3 → bankSelected (rq.arg 2) s.assembler = some bank1 →
      image = mapImage s.assembler bank1 → o ≤ image.length → exec (.readMap src) s = answered) ∧
    (∀ bank1, s.assembler.bank0.length = 61 → s.assembler.bank1.length = 61 →
      (mapImage s.assembler bank1).length = 246) ∧
    (∀ i : Fin 4, Takes 0x21 src s rq → rq.args.length = 3 → rq.num 2 = i.val →
      image = profileImage s.keying s.assembler.selection i → o ≤ image.length →
      image.length = 22 ∧ exec (.readProfile src) s = answered) ∧
    (Takes 0x22 src s rq → rq.args.length = 2 → image = listsImage s.rules → o ≤ image.length →
      image.length = 8 + 3 * s.rules.leaps.length + 6 * s.rules.transitions.length ∧
        exec (.readLists src) s = answered) ∧
    (Takes 0x23 src s rq → rq.args.length = 2 → image = stackImage s.stack → o ≤ image.length →
      image.length = 1 + 5 * s.stack.length ∧ exec (.readStack src) s = answered) ∧
    (Takes 0x24 src s rq → rq.args.length = 2 → image = wordImage s.assembler → o ≤ image.length →
      image.length = 91 ∧ exec (.readWord src) s = answered) ∧
    (Takes 0x25 src s rq → rq.args.length = 2 → image = linesImage s → o ≤ image.length →
      image.length = 52 ∧ exec (.readLines src) s = answered)

/-- READ_STATUS taken at an offset within the record (R35, R174, R191, R192): the record of 64 bytes is captured as it stands,
for whatever byte stands for an absent pending balance (log 13); then the clear option zeroes the nine counters and clears the
five event flags, the eight edge-event flags and the halt latch, with or without a reply, and without it nothing is cleared.
-/
def Obligations.ReadStatusCapturesThenClears : Prop :=
  ∀ (src : Link) (s : State) (rq : Request) (clear : Bool), Takes 0x26 src s rq → rq.args.length = 3 →
    boolOf (rq.arg 2) = some clear → rq.num2 0 ≤ 64 →
    ∃ (free : Byte) (outcome : ReplyOutcome) (data : List Byte) (s2 : State),
      (statusRecord s free).length = 64 ∧
      exec (.readStatus src) s = .next (finishTake rq { outcome := outcome, data := data, state := s2 }) ∧
      (outcome, data) =
        (if rq.num2 0 + (s.link src).settings.returnLimit < 64 then
          (.more, be2 (rq.num2 0 + (s.link src).settings.returnLimit)
            ++ ((statusRecord s free).drop (rq.num2 0)).take (s.link src).settings.returnLimit)
        else (.done, be2 64 ++ (statusRecord s free).drop (rq.num2 0))) ∧
      (clear = false → s2 = (popTaken src s).withFreeDraws s2.freeDraws) ∧
      (clear = true →
        s2.status = clearedStatus ∧ (∀ n, s2.line n = { s.line n with edgeFlag := false }) ∧
        s2.carrier = { s.carrier with haltLatch := false } ∧
        s2 = ((((popTaken src s).withFreeDraws s2.freeDraws).withStatus s2.status).withLineUnit
          { s.lineUnit with lines := s2.lineUnit.lines }).withCarrier s2.carrier)

/-! ### The keying step and the second boundary (03, 04, 07, 09, 11) -/

/-- KEYING_STEP with nothing left over from the step before (R40, R45, R151, R153, R155, R165, R178, R181): the flywheel and
the pulse timers advance (an expiry is due from 1000·(missed + 1) + W on: the model's choice, log 29); carrier control moves
k, held within 0 and Rc (log 20), and gives its amplitude for the step, and a rise that ended in the step before (the model's
own mark, log 5) has made the carrier STEADY for this one; but at a wrap, whose sample is left to its boundary (log 5), the
next sample of the slot goes out, its amplitude from carrier control outside STEADY and from the latch in STEADY (also from
one keyed before the carrier left STEADY and came back in its slot: the model's choice, log 49); an input line runs its filter
and an output line keeps; the strobe timers count down. No other block changes. What falls due in the step is marked and left
to its own command (log 5). -/
def Obligations.KeyingStepAdvances : Prop :=
  ∀ (pins : PinIn) (s : State), Quiet s → ∃ t, exec (.keyingStep pins) s = .next t ∧
    t.timebase.m = (s.timebase.m + 1) % 1000 ∧ (t.timebase.wrapDue = true ↔ s.timebase.m = 999) ∧
    (∀ x, t.monitor x =
      { s.monitor x with
        timer := (s.monitor x).timer.map (· + 1)
        missDue := (s.monitor x).timer.any
          (fun n => decide (1000 * ((s.monitor x).missed + 1) + s.timebase.settings.window ≤ n + 1)) }) ∧
    t.timebase =
      { s.timebase with
        m := t.timebase.m, wrapDue := t.timebase.wrapDue, formed := .none, monitors := t.timebase.monitors } ∧
    t.carrier =
      { s.carrier with
        k := match s.carrier.state with
          | .off => 0
          | .rising => min s.carrier.rc (s.carrier.k + 1)
          | .steady => s.carrier.k
          | .falling => s.carrier.k - 1
        rampEnd := t.carrier.rampEnd
        justSteady := false } ∧
    (t.carrier.rampEnd = true ↔ (s.carrier.state = .rising ∧ s.carrier.rc ≤ s.carrier.k + 1) ∨
      (s.carrier.state = .falling ∧ s.carrier.k ≤ 1)) ∧
    t.keying.stepAmp = (match s.carrier.state with
      | .off => some 0
      | .rising => some (s.carrier.fr * t.carrier.k / s.carrier.rc)
      | .falling => some (s.carrier.fr * t.carrier.k / s.carrier.rc)
      | .steady => none) ∧
    (s.timebase.m = 999 → t.keying = { s.keying with stepAmp := t.keying.stepAmp }) ∧
    (s.timebase.m ≠ 999 → t.keying =
      { s.keying with
        j := s.keying.j + 1
        stepAmp := t.keying.stepAmp
        keyOut :=
          { amplitude := match s.carrier.state with
              | .off => 0
              | .rising => s.carrier.fr * t.carrier.k / s.carrier.rc
              | .falling => s.carrier.fr * t.carrier.k / s.carrier.rc
              | .steady => sampleAmplitude s.keying.latch (s.keying.j + 1)
            slotStart := false
            minuteStart := false
            dip := s.carrier.state == .steady && inDip s.keying.latch (s.keying.j + 1) } }) ∧
    (∀ n, (isOutput s n = true → t.line n = s.line n) ∧
      (isOutput s n = false →
        let found := pinFound pins n (s.line n).pull
        t.line n =
          if found = (s.line n).filtered then { s.line n with raw := found, run := 0 }
          else if (s.line n).run + 1 ≤ (s.line n).filter then { s.line n with raw := found, run := (s.line n).run + 1 }
          else { s.line n with raw := found, filterDue := true })) ∧
    t.lineUnit.strobes =
      { minute := s.lineUnit.strobes.minute.map (· - 1), slot := s.lineUnit.strobes.slot.map (· - 1),
        second := s.lineUnit.strobes.second.map (· - 1) } ∧
    t = { s with timebase := t.timebase, carrier := t.carrier, keying := t.keying,
                 lineUnit := { s.lineUnit with lines := t.lineUnit.lines, strobes := t.lineUnit.strobes } }

/-- FLYWHEEL_WRAP at a wrap with no pulse on L6 at hand (R41, R56, R58, R65, R69, R114, R126, R130, R150, R153, R181): a slot
starts, with its marks and strobes. While time is absent it has no label and NIL, and the words are gone; with time valid and
no leap second or balance in hand the count goes on by one, the label is that second's, and holdover without a source counts;
at second 0 the pending word becomes the current one. A balance that differs gives the label STEP and drops the words, without
a time step (R69). A second out of the span makes time absent and leaves no active source, the ACTIVE monitor QUALIFIED (R58).
The end of a word at any boundary (R128 to R130, R189): replaced after its last slot (log 24 at a hand-over) it is completed
and, CODED, unbroken and keyed, counts in MINUTES_CODED; replaced before, or at a mark, it is abandoned and, keyed, broken. -/
def Obligations.WrapMakesTheBoundary : Prop :=
  (∀ (label : Option Label) (s : State) (cw : CurrentWord), s.assembler.current = some cw →
    let t := assemblerBoundary label s
    let keyed : Bool := s.carrier.code == .running || s.carrier.code == .ending
    let lastBegun : Prop := cw.lastSlot + 1 = cw.word.length
    let completed : Prop := t.status =
      { s.status with
        minutesCoded := if cw.word.kind = .coded ∧ cw.word.broken = false ∧ keyed = true then
          min 65535 (s.status.minutesCoded + 1) else s.status.minutesCoded }
    let abandoned : Prop := t.status =
      { s.status with
        brokenMinutes := if cw.word.broken = false ∧ keyed = true then
          min 65535 (s.status.brokenMinutes + 1) else s.status.brokenMinutes }
    (label = none → t.assembler.current = none ∧ t.assembler.pendingWord = none ∧ (lastBegun → completed) ∧
      (¬lastBegun → abandoned)) ∧
    ∀ lab, label = some lab →
      (lab.mark ≠ .none → t.assembler.current = none ∧ t.assembler.pendingWord = none ∧ abandoned) ∧
      (lab.mark = .none → lab.second = 0 → t.assembler.pendingWord = none ∧
        t.assembler.current = s.assembler.pendingWord.map (fun w => { word := w, lastSlot := 0 }) ∧
        (lastBegun → completed) ∧ (¬lastBegun → abandoned)) ∧
      (lab.mark = .none → lab.second ≠ 0 → t.assembler.current = some { cw with lastSlot := lab.second } ∧
        t.assembler.pendingWord = s.assembler.pendingWord ∧ t.status = s.status)) ∧
  ∀ s : State, s.timebase.wrapDue = true → AloneInStep .lineL6 s → s.lineUnit.l6Pulse = false →
    ∃ t, exec .flywheelWrap s = .next t ∧
    t.timebase.wrapDue = false ∧ t.timebase.m = s.timebase.m ∧ t.keying.j = 0 ∧ t.keying.keyOut.slotStart = true ∧
    t.keying.keyOut.minuteStart = t.timeScale.label.any (·.second == 0) ∧
    t.lineUnit.strobes.second = some s.lineUnit.strobeWidth ∧
    t.lineUnit.strobes.minute =
      (if t.timeScale.label.any (·.second == 0) then some s.lineUnit.strobeWidth else s.lineUnit.strobes.minute) ∧
    t.lineUnit.strobes.slot =
      (if t.timeScale.label.any (·.second == s.lineUnit.strobeSlot) then some s.lineUnit.strobeWidth
        else s.lineUnit.strobes.slot) ∧
    t.links = s.links ∧ t.executor = s.executor ∧
    (s.timebase.count = none →
      t.timeScale.label = none ∧ t.timebase.count = none ∧ t.keying.latch.symbol = .nil ∧
      t.assembler.current = none ∧ t.assembler.pendingWord = none ∧ t.assembler.assembly = none ∧
      t.assembler.slotInForce = s.assembler.slotSetting ∧ t.timeScale.balance = s.timeScale.sumBase ∧
      t.timeScale.pendingBalance = none) ∧
    (∀ c, s.timebase.count = some c → s.rules.leaps = [] →
      let u : Int := (c : Int) + 1 - s.timeScale.sumBase
      (0 ≤ u → u ≤ 3155759999 → s.timeScale.sumBase ≠ s.timeScale.balance →
        t.timeScale.balance = s.timeScale.sumBase ∧ t.timeScale.pendingBalance = none ∧
        (∃ lab, t.timeScale.label = some lab ∧ lab.mark = .step ∧ (lab.u : Int) = u ∧ lab.count = c + 1) ∧
        t.timebase.count = some (c + 1) ∧ t.assembler.current = none ∧ t.assembler.pendingWord = none ∧
        t.status.timeSteps = s.status.timeSteps ∧ t.status.timeStep = s.status.timeStep) ∧
      (u < 0 ∨ 3155759999 < u →
        t.timeScale.label = none ∧ t.timebase.count = none ∧ t.timebase.active = none ∧
        t.timebase.holdover = s.timebase.holdover ∧ t.assembler.current = none ∧ t.assembler.pendingWord = none ∧
        ∀ x, t.monitor x =
          { s.monitor x with
            state := if (s.monitor x).state = .active then .qualified else (s.monitor x).state })) ∧
    ∀ c u : Nat, s.timebase.count = some c → s.rules.leaps = [] → s.timeScale.pendingBalance = none →
      (u : Int) = (c : Int) + 1 - s.timeScale.balance → u < 3155760000 →
      t.timebase.count = some (c + 1) ∧
      t.timeScale =
        { balance := s.timeScale.balance, pendingBalance := none,
          label := some { day := u / 86400, hour := u % 86400 / 3600, minute := u % 3600 / 60, second := u % 60,
                          inserted := false, u := u, count := c + 1, mark := .none } } ∧
      t.timebase.holdover =
        (if s.timebase.active = none then min 4294967295 (s.timebase.holdover + 1) else s.timebase.holdover) ∧
      (u % 60 = 0 → s.assembler.assembly = none →
        t.assembler.pendingWord = none ∧
        t.assembler.current.map (fun cw => ({ cw.word with broken := false }, cw.lastSlot)) =
          s.assembler.pendingWord.map (fun w => ({ w with broken := false }, 0)) ∧
        t.assembler.slotInForce = s.assembler.slotSetting)

/-- Leap seconds (R64 to R68): the second with U = 86400(d + 1) under a listed INSERT of day d is 23:59:60 of day d, and the
next one, with the balance raised and the entry gone, 00:00:00 of day d + 1; under a listed DELETE the second that would be
23:59:59 is 00:00:00 of day d + 1, with the balance lowered and the entry gone. At the last day of the span the second after
the leap has no label. -/
def Obligations.LeapSecondsAreLabelled : Prop :=
  ∀ (balance : Int) (label : Option Label) (d c : Nat) (rest : List LeapEntry),
    d ≤ 36524 → (∀ e ∈ rest, d < e.day) →
    let unit : TimeScale := { balance := balance, pendingBalance := none, label := label }
    let midnight : Label :=
      { day := d + 1, hour := 0, minute := 0, second := 0, inserted := false, u := 86400 * (d + 1), count := c + 1,
        mark := .none }
    ((c : Int) - balance = 86400 * ((d : Int) + 1) →
      labelBoundary unit ({ day := d, insert := true } :: rest) (some (c, .none)) =
        ({ unit with
            label := some { day := d, hour := 23, minute := 59, second := 60, inserted := true,
                            u := 86400 * (d + 1) - 1, count := c, mark := .none } },
          { day := d, insert := true } :: rest) ∧
      labelBoundary unit ({ day := d, insert := true } :: rest) (some (c + 1, .none)) =
        ({ balance := balance + 1, pendingBalance := none, label := if d = 36524 then none else some midnight },
          rest)) ∧
    ((c : Int) + 1 - balance = 86400 * ((d : Int) + 1) - 1 →
      labelBoundary unit ({ day := d, insert := false } :: rest) (some (c + 1, .none)) =
        ({ balance := balance - 1, pendingBalance := none, label := if d = 36524 then none else some midnight },
          rest))

/-- The calendar (R71, R72): for every civil day of the part the date found is the date whose days since 2000-01-01, counted
year by year and month by month, are that day's number, with a day of month that lies within the month. -/
def Obligations.CalendarIsExact : Prop :=
  ∀ d : Int, -1 ≤ d → d ≤ 36525 →
    let x := dateOf d
    daysBefore x.year x.month x.mday = d ∧ 1999 ≤ x.year ∧ x.year ≤ 2100 ∧ 1 ≤ x.month ∧ x.month ≤ 12 ∧ 1 ≤ x.mday ∧
      x.mday ≤ 31 ∧ d < (if x.month = 12 then daysBefore (x.year + 1) 1 1 else daysBefore x.year (x.month + 1) 1)

/-- The weekday of a day (R73): ((Dc + 5) mod 7) + 1, 1 for Monday to 7 for Sunday; day 0 is a Saturday, days -1 and 36525 are
Fridays. -/
def Obligations.WeekdayOfDay : Prop :=
  (∀ d : Int, (weekdayOf d : Int) = (d + 5) % 7 + 1 ∧ 1 ≤ weekdayOf d ∧ weekdayOf d ≤ 7 ∧
    weekdayOf (d + 1) = weekdayOf d % 7 + 1) ∧
    weekdayOf 0 = 6 ∧ weekdayOf (-1) = 5 ∧ weekdayOf 36525 = 5

/-- Fields and weights (R75, R77, R97): for every described minute and offset the field values are the civil time's, and for
each numeric field the valid weights that give ONE add up to its value; the sign and the spare bits are read as they are. -/
def Obligations.WeightsSpellTheFields : Prop :=
  ∀ (t : Nat) (offset : Int) (spare : Byte), 1 ≤ t → t ≤ 52596000 → -48 ≤ offset → offset ≤ 56 →
    let v := fieldValues t offset spare
    let c : Int := (t : Int) + 15 * offset
    let spelled (field : Nat) : Nat := ((validWeights field).filter (fieldBit v field)).sum
    ((60 * v.hour + v.minute : Nat) : Int) = c % 1440 ∧ v.minute < 60 ∧ v.hour < 24 ∧
    v.mday = (dateOf (c / 1440)).mday ∧ v.month = (dateOf (c / 1440)).month ∧ v.year = (dateOf (c / 1440)).year % 100 ∧
    v.wday = weekdayOf (c / 1440) ∧ v.offset = offset ∧ v.spare = spare ∧
    spelled 0 = v.minute ∧ spelled 1 = v.hour ∧ spelled 2 = v.mday ∧ spelled 3 = v.wday ∧ spelled 4 = v.month ∧
    spelled 5 = v.year ∧ spelled 6 = offset.natAbs ∧ (fieldBit v 7 1 = true ↔ offset < 0) ∧
    ∀ k < 8, fieldBit v 8 k = spare.getLsbD k

/-- Announcements (R90, R91) and leap hints (R93, R94): with both lists in order, CHG_ANN is 1 exactly when a listed
transition lies ahead within the change window, LEAP_ANN when the head's leap minute lies ahead within the leap window,
LEAP_NEG when that head is a DELETE; a hint that its day's entry does not match sets LEAP_MISMATCH once for the day. -/
def Obligations.AnnouncementsAndHints : Prop :=
  (∀ (r : RuleLists) (t : Nat), r.transitions.Pairwise (·.minute < ·.minute) →
    (chgAnn r t = true ↔ ∃ e ∈ r.transitions, t < e.minute ∧ e.minute ≤ t + r.changeWindow) ∧
    (leapAnn r t = true ↔ ∃ e, r.leaps.head? = some e ∧ t ≤ 1440 * e.day + 1439 ∧ 1440 * e.day + 1439 < t + r.leapWindow) ∧
    (leapNeg r t = true ↔ leapAnn r t = true ∧ ∃ e, r.leaps.head? = some e ∧ e.insert = false)) ∧
  ∀ (f : EpochFrame) (s : State) (day : Nat),
    (∀ e, s.rules.leaps.head? = some e → e.insert = true → (f.count : Int) - s.timeScale.balance = 86400 * ((e.day : Int) + 1) →
      day = e.day) →
    ((∀ e, s.rules.leaps.head? = some e → e.insert = true →
      (f.count : Int) - s.timeScale.balance ≠ 86400 * ((e.day : Int) + 1)) →
      day = (((f.count : Int) - s.timeScale.balance) / 86400).toNat) →
    let known := f.hint = .none ∨ (f.hint = .insertToday ∧ ∃ e ∈ s.rules.leaps, e.day = day ∧ e.insert = true) ∨
      (f.hint = .deleteToday ∧ ∃ e ∈ s.rules.leaps, e.day = day ∧ e.insert = false)
    (known ∨ s.rules.lastMismatch = some day → checkHint f s = s) ∧
    (¬known → s.rules.lastMismatch ≠ some day →
      checkHint f s = (s.withRules { s.rules with lastMismatch := some day }).withStatus
        { s.status with leapMismatch := true })

/-! ### Assembly, words and overrides (07, 08) -/

/-- The assembly (R80, R88, R90, R91, R110, R115 to R117, R121, R131, R140, R142, R143): it starts at a boundary labelled with
the slot in force (at second 0 the setting just copied), in every minute but the span's last. Its start takes the pending
commit, makes the next minute the late reference, marks the stack and takes the view from what stands, with the due
transitions' civil state, the merged content, profile and flags, and 61, 59 or 60 slots by the leap list; its completion
removes the due transitions, takes over their civil state, expires the marked entries and makes the word pending. -/
def Obligations.AssemblyTakesAndBuildsTheView : Prop :=
  (∀ (lab : Label) (s : State),
    let t := startAssembly lab s
    let due := s.rules.transitions.filter (·.minute ≤ lab.u / 60 + 2)
    t.assembler.commitPending = false ∧
    t.assembler.active1 = (s.assembler.active1 ^^ s.assembler.commitPending) ∧
    t.assembler.bank0 = s.assembler.bank0 ∧ t.assembler.bank1 = s.assembler.bank1 ∧
    t.rules = { s.rules with lateRef := some (lab.u / 60 + 1) } ∧
    t.stack = s.stack.map (fun e => { e with mark := true }) ∧
    ∃ v, t.assembler.assembly = some v ∧ v.start = lab ∧ v.map = t.assembler.activeBank ∧
      v.transmitted = lab.u / 60 + 1 ∧ v.due = due ∧
      (v.offset, v.summer) = (match due.getLast? with
        | some e => (e.offset, e.summer)
        | none => (s.rules.offset, s.rules.summer)) ∧
      v.fields = fieldValues (lab.u / 60 + 2) v.offset s.assembler.spare ∧ v.test = s.assembler.test ∧
      v.limited = limited s ∧ v.profile = mergedProfile s.assembler.selection s.stack ∧
      v.content = mergedContent s.stack ∧
      v.flags = mergedFlags
        { leapAnn := leapAnn s.rules (lab.u / 60 + 2), leapNeg := leapNeg s.rules (lab.u / 60 + 2),
          chgAnn := chgAnn s.rules (lab.u / 60 + 2), summer := v.summer, holdover := warned s } s.stack ∧
      v.length = wordLength s.rules.leaps v.transmitted ∧
      (v.length = 61 ↔ ∃ e ∈ s.rules.leaps, e.insert = true ∧ 1440 * e.day + 1439 = v.transmitted) ∧
      (v.length = 59 ↔ (∃ e ∈ s.rules.leaps, e.insert = false ∧ 1440 * e.day + 1439 = v.transmitted) ∧
        ∀ e ∈ s.rules.leaps, e.insert = true → 1440 * e.day + 1439 ≠ v.transmitted) ∧
      ((∀ e ∈ s.rules.leaps, 1440 * e.day + 1439 ≠ v.transmitted) → v.length = 60)) ∧
  (∀ (label : Option Label) (s : State),
    let t := assemblerBoundary label s
    let starts (lab : Label) : Prop := lab.u / 60 ≠ 52595999 ∧
      lab.second = if lab.second = 0 then s.assembler.slotSetting else s.assembler.slotInForce
    (∀ lab, label = some lab → starts lab → ∃ s1, t = startAssembly lab s1 ∧ s1.stack = s.stack ∧
      s1.timebase = s.timebase ∧ s1.rules = { s.rules with lateRef := s1.rules.lateRef } ∧
      s1.assembler =
        { s.assembler with
          current := t.assembler.current, pendingWord := t.assembler.pendingWord, slotInForce := lab.second }) ∧
    ((∀ lab, label = some lab → ¬starts lab) → t.assembler.assembly = s.assembler.assembly ∧ t.stack = s.stack ∧
      t.assembler.commitPending = s.assembler.commitPending ∧ t.assembler.active1 = s.assembler.active1)) ∧
  ∀ (s : State) (v : View), s.assembler.assembly = some v → exec .assemblyCompletion s = .next
    { s with
      rules :=
        if v.due = [] then s.rules
        else
          { s.rules with
            transitions := s.rules.transitions.filter (fun e => v.due.all (·.minute ≠ e.minute))
            offset := v.offset, summer := v.summer }
      stack := expireStack s.stack
      assembler := { s.assembler with assembly := none, pendingWord := some (buildWord v) } }

/-- Words (R101, R119, R120, R122 to R124): a word built from a sound view has its length in symbols and ends in NIL; it is
SUSPENDED when holdover is limited, else SILENT, TEST or CODED by its content; in a CODED word MARK, NIL, CONST0, CONST1,
FIELD and FLAG entries give their symbols; a TEST word is the test record, its last symbol in the last slot and ZERO in slot
59 of 61; and in a CODED word each PARITY symbol makes the number of ONE symbols among its group's carried members, plus
itself, even or odd by its sense. -/
def Obligations.WordsKeepLengthAndParity : Prop :=
  ∀ v : View, v.Sound →
    let w := buildWord v
    let carried : List MapEntry := (tailPositions v.length).filterMap (v.map[·]?)
    w.Sound ∧ w.length = v.length ∧ w.transmitted = v.transmitted ∧ w.broken = false ∧
    w.kind = (if v.limited then .suspended else match v.content with
      | .silence => .silent
      | .test => .test
      | .normal => .coded) ∧
    (w.kind = .suspended ∨ w.kind = .silent → ∀ x ∈ w.symbols, x = .nil) ∧
    (w.kind = .test → ∀ i < v.length, w.symbols[i]? =
      if v.length = 61 ∧ i = 59 then some .zero else if i + 1 = v.length then v.test[59]? else v.test[i]?) ∧
    (w.kind = .coded → carried.length = v.length ∧ ∀ (i : Nat) (e : MapEntry), carried[i]? = some e →
      (e.kind = .mark → w.symbols[i]? = some .mark) ∧ (e.kind = .nil → w.symbols[i]? = some .nil) ∧
      (e.kind = .const0 → w.symbols[i]? = some .zero) ∧ (e.kind = .const1 → w.symbols[i]? = some .one) ∧
      (e.kind = .flag → ∀ value, (e.code.toNat, value) ∈ [(0, v.flags.leapAnn), (1, v.flags.leapNeg), (2, v.flags.chgAnn),
          (3, v.flags.summer), (4, v.flags.holdover)] → w.symbols[i]? = some (if value then .one else .zero)) ∧
      (e.kind = .field → w.symbols[i]? = some (if fieldBit v.fields e.code.toNat e.weight.toNat then .one else .zero)) ∧
      (e.kind = .parity →
        (((List.range v.length).filter fun j =>
            carried[j]?.any (·.memberOf e.parityGroup) && w.symbols[j]? == some .one).length
          + (if w.symbols[i]? = some .one then 1 else 0)) % 2 = if e.parityOdd then 1 else 0))

/-- The override stack (R140, R142, R143): each aspect of the view takes its topmost entry's value, else its normal one; and
after any number of assemblies over an unchanged stack exactly the entries whose minutes exceed that number are left, in their
order, each with so many minutes fewer. -/
def Obligations.OverridesMergeAndExpire : Prop :=
  (∀ (stack : List OverrideEntry) (selection : Fin 4) (f : FlagName) (normal : Bool),
    mergedContent stack = ((stack.findSome? fun e => match e.value with
      | .content test => some (if test then Content.test else .silence)
      | _ => none).getD .normal) ∧
    mergedProfile selection stack = ((stack.findSome? fun e => match e.value with
      | .profile p => some p
      | _ => none).getD selection) ∧
    mergedFlag f normal stack = ((stack.findSome? fun e => match e.value with
      | .flag g v => if g = f then some v else none
      | _ => none).getD normal)) ∧
  ∀ (n : Nat) (stack : List OverrideEntry), (∀ e ∈ stack, e.mark = false ∧ e.Sound) →
    (fun st => expireStack (markAll st))^[n] stack =
      (stack.filter fun e => e.remaining.all (n < ·)).map fun e => { e with remaining := e.remaining.map (· - n) }

/-! ### Pulses and sources (03) -/

/-- The judgement of a second (R44): good when all six conditions hold, starting when last S is absent and the first three
hold, bad otherwise. The offsets are compared modulo 1000. -/
def Obligations.SecondsAreJudged : Prop :=
  ∀ (set : TimebaseSettings) (balance : Int) (mon : Monitor) (frame : Option EpochFrame) (e : Int), set.InRange →
    let usable (f : EpochFrame) : Prop :=
      frame = some f ∧ (f.quality = .locked ∨ (f.quality = .degraded ∧ set.acceptDegraded = true)) ∧
        0 ≤ (f.count : Int) - balance ∧ (f.count : Int) - balance ≤ 3155759999
    (judgePulse set balance mon frame e = .good ↔ ∃ f lastS lastE, usable f ∧ mon.last = some (lastS, lastE) ∧
      f.count = lastS + 1 ∧ (∃ z : Int, (e - lastE - 1000 * z).natAbs ≤ set.window) ∧
      (mon.state = .active → e.natAbs ≤ set.window)) ∧
    (judgePulse set balance mon frame e = .starting ↔ mon.last = none ∧ ∃ f, usable f)

/-- PULSE and MISSING_SECOND that do not steer (R42, R44 to R46, R49), of a pulse that need not wait (log 41): every pulse
consumes the latch and restarts the timer; a stray pulse of an ACTIVE source counts in STRAY_PULSES, and a consumed frame
whose U lies outside the span records EPOCH_RANGE and nothing else on the link; a bad second loses the run and, of an ACTIVE
source, the active source, and counts; a starting second opens a run; a good second of a HUNTING source short of N counts on;
a missing second is a bad one. The flywheel, the count, the label, the words and the keying are left as they are. -/
def Obligations.PulsesJudgeTheirSource : Prop :=
  ∀ (x : Link) (s : State), (s.monitor x).state ≠ .down →
    let mon := s.monitor x
    let untouched (t : State) : Prop :=
      t.timebase.m = s.timebase.m ∧ t.timebase.count = s.timebase.count ∧ t.timeScale = s.timeScale ∧
        t.assembler = s.assembler ∧ t.keying = s.keying ∧ t.carrier = s.carrier ∧ t.rules.leaps = s.rules.leaps ∧
        t.monitor x.other = s.monitor x.other
    let lost (t : State) : Prop :=
      t.timebase.active = (if mon.state = .active then none else s.timebase.active) ∧
        t.status.badSeconds.get x = min 65535 (s.status.badSeconds.get x + 1)
    (∀ i, PulseOn x i s → pulseWaits s = false → s.timebase.wrapDue = false →
      let e := pulseOffset s.timebase.m
      let judged := judgePulse s.timebase.settings s.timeScale.balance mon (s.link x).latch e
      let out : Bool := (s.link x).latch.any fun f =>
        decide ((f.count : Int) - s.timeScale.balance < 0 ∨ 3155759999 < (f.count : Int) - s.timeScale.balance)
      ∃ t, exec (.pulse ⟨i, none⟩) s = .next t ∧
        t.link x = { s.link x with latch := none, errors := (s.link x).errors ||| if out then 0x0200 else 0 } ∧
        t.link x.other = s.link x.other ∧ t.status.framesDiscarded = s.status.framesDiscarded ∧
        t.status.strayPulses.get x =
          (if mon.state = .active ∧ s.timebase.settings.window < e.natAbs then min 65535 (s.status.strayPulses.get x + 1)
            else s.status.strayPulses.get x) ∧
        t.status.strayPulses.get x.other = s.status.strayPulses.get x.other ∧
        (judged = .bad → untouched t ∧ lost t ∧
          t.monitor x = { state := .hunting, good := 0, last := none, timer := some 0, missed := 0, missDue := false,
                          waiting := mon.waiting }) ∧
        (judged = .starting → untouched t ∧ t.timebase.active = s.timebase.active ∧
          t.status.badSeconds = s.status.badSeconds ∧ ∃ f, (s.link x).latch = some f ∧
          t.monitor x = { state := mon.state, good := 0, last := some (f.count, e), timer := some 0, missed := 0,
                          missDue := false, waiting := mon.waiting }) ∧
        (judged = .good → mon.state = .hunting → mon.good + 1 < s.timebase.settings.qualify → untouched t ∧
          t.timebase.active = s.timebase.active ∧ t.status.badSeconds = s.status.badSeconds ∧
          ∃ f, (s.link x).latch = some f ∧
          t.monitor x = { state := .hunting, good := mon.good + 1, last := some (f.count, e), timer := some 0, missed := 0,
                          missDue := false, waiting := mon.waiting }) ∧
        (judged = .good → mon.state = .hunting → s.timebase.settings.qualify ≤ mon.good + 1 → s.timebase.active = none →
          (t.monitor x).good = s.timebase.settings.qualify ∧ (t.monitor x).state ≠ .hunting)) ∧
    (mon.missDue = true → ∃ t, exec (.missingSecond x) s = .next t ∧ untouched t ∧ lost t ∧ t.links = s.links ∧
      t.monitor x = { state := .hunting, good := 0, last := none, timer := mon.timer, missed := mon.missed + 1,
                      missDue := false, waiting := mon.waiting })

/-- A good pulse of the active source steers the flywheel (R46, R48, R156, R157): late, it sets m and j back to 0 without a
boundary; on time, the wrap of its step is the boundary, in the same event, and where that step has no wrap to come nothing
more happens (a pulse at m = 0 after another pulse has set it so: the model's choice, logs 7 and 40); early, it is the
boundary itself and the coming wrap is gone. A boundary labels its second from the count it carries. A pulse that need not
wait is meant (log 41), with no other at hand at a wrap. -/
def Obligations.ActivePulsesSteer : Prop :=
  ∀ (x : Link) (i : PulseInput) (f : EpochFrame) (s : State), PulseOn x i s → pulseWaits s = false →
    (s.monitor x).state = .active →
    (s.link x).latch = some f →
    let e := pulseOffset s.timebase.m
    judgePulse s.timebase.settings s.timeScale.balance (s.monitor x) (s.link x).latch e = .good →
    let boundary :=
      (labelBoundary s.timeScale s.rules.leaps (s.timebase.count.map fun c => (c + 1, Mark.none))).1
    ∃ t, exec (.pulse ⟨i, none⟩) s = .next t ∧
      (0 < e → s.timebase.wrapDue = false →
        t.timebase.m = 0 ∧ t.keying.j = 0 ∧ t.keying.latch = s.keying.latch ∧ t.keying.keyOut.slotStart = false ∧
        t.keying.keyOut.amplitude = s.keying.stepAmp.getD (sampleAmplitude s.keying.latch 0) ∧
        t.timeScale = s.timeScale ∧ t.timebase.count = s.timebase.count ∧ t.assembler = s.assembler ∧
        t.timebase.active = s.timebase.active ∧ (t.monitor x).last = some (f.count, 0)) ∧
      (e = 0 → s.timebase.wrapDue = true → AloneInStep i s →
        t.timebase.m = s.timebase.m ∧ t.timebase.wrapDue = false ∧ t.keying.j = 0 ∧ t.keying.keyOut.slotStart = true ∧
        t.timeScale = boundary ∧ t.timebase.count = boundary.label.map (·.count) ∧
        (t.monitor x).last = some (f.count, 0)) ∧
      (e = 0 → s.timebase.wrapDue = false →
        t.timebase.m = s.timebase.m ∧ t.keying = s.keying ∧ t.timeScale = s.timeScale ∧ t.assembler = s.assembler ∧
        (t.monitor x).last = some (f.count, 0)) ∧
      (e < 0 → s.timebase.wrapDue = false →
        t.timebase.m = 0 ∧ t.timebase.wrapDue = false ∧ t.keying.j = 0 ∧ t.keying.keyOut.slotStart = true ∧
        t.timeScale = boundary ∧ t.timebase.count = boundary.label.map (·.count) ∧
        (t.monitor x).last = some (f.count, 0))

/-- Adoption, time step and revertive switch (R50 to R55): a good pulse that finds or leaves its source QUALIFIED with no
active source adopts it: with time absent it is a boundary that carries the frame's S and FIRST; with time valid and the pulse
not agreeing it is one that carries S and STEP, counts a time step and drops the words; agreeing, it steers as an active pulse
does: early it is the boundary, on time the wrap is, late it re-aligns, and the count runs on with mark NONE. While the other
source is ACTIVE, an agreeing pulse of the preferred source under revertive takes its place and steers likewise; one that is
not preferred, or without revertive, changes nothing; a disagreeing one sets SOURCE_DISAGREE and no more. At m = 0 with the
wrap already taken the count compared is c (the model's choice, logs 7 and 40). A pulse that need not wait is meant (log 41),
with no other at hand at a wrap. -/
def Obligations.SourcesAreAdopted : Prop :=
  ∀ (x : Link) (i : PulseInput) (f : EpochFrame) (s : State), PulseOn x i s → pulseWaits s = false →
    (s.link x).latch = some f → (s.timebase.wrapDue = true → s.timebase.m = 0 ∧ AloneInStep i s) →
    let mon := s.monitor x
    let e := pulseOffset s.timebase.m
    let agree : Prop := e.natAbs ≤ s.timebase.settings.window ∧ ∃ c, s.timebase.count = some c ∧
      f.count = if 0 < e ∨ (e = 0 ∧ s.timebase.wrapDue = false) then c else c + 1
    let stamped (mark : Mark) := (labelBoundary s.timeScale s.rules.leaps (some (f.count, mark))).1
    let adopted (t : State) : Prop := t.timebase.active = some x ∧ (t.monitor x).state = .active ∧ t.timebase.holdover = 0
    let boundary (unit : TimeScale) (t : State) : Prop :=
      t.timebase.m = 0 ∧ t.timebase.wrapDue = false ∧ t.keying.j = 0 ∧ t.keying.keyOut.slotStart = true ∧
        t.timeScale = unit ∧ t.timebase.count = unit.label.map (·.count)
    let realigned (t : State) : Prop :=
      t.timebase.m = 0 ∧ t.keying.j = 0 ∧ t.keying.latch = s.keying.latch ∧ t.keying.keyOut.slotStart = false ∧
        t.timeScale = s.timeScale ∧ t.timebase.count = s.timebase.count ∧ t.assembler = s.assembler
    let untouched (t : State) : Prop :=
      t.timebase.m = s.timebase.m ∧ t.timeScale = s.timeScale ∧ t.timebase.count = s.timebase.count ∧
        t.keying = s.keying ∧ t.assembler = s.assembler
    let steered (t : State) : Prop :=
      (0 < e → s.timebase.wrapDue = false → realigned t) ∧
        (e < 0 ∨ s.timebase.wrapDue = true → boundary (stamped .none) t) ∧
        (e = 0 → s.timebase.wrapDue = false → untouched t)
    judgePulse s.timebase.settings s.timeScale.balance mon (s.link x).latch e = .good →
    (mon.state = .qualified ∨ (mon.state = .hunting ∧ s.timebase.settings.qualify ≤ mon.good + 1)) →
    ∃ t, exec (.pulse ⟨i, none⟩) s = .next t ∧
      (s.timebase.active = none → (s.monitor x.other).state ≠ .active →
        (s.timebase.count = none →
          boundary (stamped .first) t ∧ t.status.timeSteps = s.status.timeSteps ∧
          ((stamped .first).label.isSome = true → t.timebase.count = some f.count ∧ adopted t)) ∧
        (s.timebase.count.isSome = true → ¬agree →
          boundary (stamped .step) t ∧ t.status.timeSteps = min 65535 (s.status.timeSteps + 1) ∧
          t.status.timeStep = true ∧ t.assembler.current = none ∧ t.assembler.pendingWord = none ∧
          ((stamped .step).label.isSome = true → t.timebase.count = some f.count ∧ adopted t)) ∧
        (agree → steered t ∧ t.status.timeSteps = s.status.timeSteps ∧ (t.timebase.count.isSome = true → adopted t))) ∧
      (s.timebase.active = some x.other → (s.monitor x.other).state = .active →
        (agree → s.timebase.settings.revertive = true → s.timebase.settings.preferred = x →
          steered t ∧ t.status.timeSteps = s.status.timeSteps ∧
          (t.timebase.count.isSome = true → t.timebase.active = some x ∧ (t.monitor x).state = .active) ∧
          t.monitor x.other = { s.monitor x.other with state := .qualified }) ∧
        (agree → s.timebase.settings.revertive = false ∨ s.timebase.settings.preferred ≠ x →
          (s.timebase.wrapDue = false → untouched t ∧ t.timebase.active = s.timebase.active ∧
            (t.monitor x).state = .qualified ∧ t.monitor x.other = s.monitor x.other ∧
            t.status.sourceDisagree = s.status.sourceDisagree)) ∧
        (¬agree → s.timebase.wrapDue = false →
          untouched t ∧ t.status.sourceDisagree = true ∧ t.timebase.active = s.timebase.active ∧
          (t.monitor x).state = .qualified ∧ t.monitor x.other = s.monitor x.other))

/-! ### Slots, code, ramps and halts (09, 10, 11) -/

/-- A slot start and carrier control at a boundary (R127, R149, R150, R159, R161, R170, R171): TX_HOLD is sampled into the
hold-suppression flag; the latch takes the symbol offered only with the code keying and no hold, else NIL, with the full level
and shape of the profile in force; a suppressed symbol other than NIL marks the current word broken; ARMED code starts at a
handed-over slot 0 in STEADY, but not in the step in which the carrier has become STEADY (whose mark is the model's own, log
5), and ENDING code stops at slot 0, a mark or no label, taking the carrier down when asked to. -/
def Obligations.SlotsStartFromTheCode : Prop :=
  (∀ (label : Option Label) (s : State),
    let t := slotStart label s
    let offered : Symbol := match label, s.assembler.current with
      | some lab, some cw => if lab.second < cw.word.length then cw.word.symbols.getD lab.second .nil else .nil
      | _, _ => .nil
    let keyed := (s.carrier.code = .running ∨ s.carrier.code = .ending) ∧ s.assembler.current.isSome = true
    let p := s.keying.profiles.get (profileInForce s)
    t.keying.j = 0 ∧ t.keying.holdSuppress = txHoldAsserted s ∧ t.keying.latch.full = p.full ∧
    (keyed → txHoldAsserted s = false → t.keying.latch.symbol = offered ∧ t.keying.latch.shape = p.shape offered) ∧
    (¬keyed ∨ txHoldAsserted s = true → t.keying.latch.symbol = .nil ∧ t.keying.latch.shape = none) ∧
    (∀ cw, s.assembler.current = some cw → keyed → txHoldAsserted s = true → offered ≠ .nil →
      t.assembler.current = some { cw with word := { cw.word with broken := true } } ∧
      t.status.brokenMinutes =
        if cw.word.broken then s.status.brokenMinutes else min 65535 (s.status.brokenMinutes + 1)) ∧
    (txHoldAsserted s = false ∨ ¬keyed ∨ offered = .nil → t.assembler = s.assembler ∧ t.status = s.status)) ∧
  ∀ (label : Option Label) (handed : Bool) (s : State),
    let t := carrierBoundary label handed s
    let c := s.carrier
    (c.code = .armed → t = if label.any (·.second == 0) = true ∧ handed = true ∧ c.state = .steady ∧
        c.justSteady = false then s.withCarrier { c with code := .running } else s) ∧
    (c.code = .running ∨ c.code = .off → t = s) ∧
    (c.code = .ending → (∃ lab, label = some lab ∧ lab.second ≠ 0 ∧ lab.mark = .none) → t = s) ∧
    (c.code = .ending → (∀ lab, label = some lab → lab.second = 0 ∨ lab.mark ≠ .none) →
      (c.offAfter = false → t = s.withCarrier { c with code := .off }) ∧
      (c.offAfter = true →
        t.carrier = { c with code := .off, offAfter := false, state := .falling, rc := c.rampSetting, fr := fullInForce s,
                             k := c.rampSetting - 1, rampEnd := false } ∧
        t.keying = { s.keying with stepAmp := some (fullInForce s * (c.rampSetting - 1) / c.rampSetting) }))

/-- Ramps (R165): RISING for Rc steps takes k from 0 to Rc and the amplitude up Fr·k / Rc to Fr, and marks its end; FALLING
takes them down to 0; at the end of that step, once its boundary is taken, RISING_COMPLETE makes the carrier STEADY and
FALLING_COMPLETE makes it OFF; a boundary of the same step commanded after RISING_COMPLETE still comes before STEADY, so that
an ARMED code waits (R170; the mark of it is the model's own, log 5). -/
def Obligations.RampsRunTheirLength : Prop :=
  (∀ (c : Carrier) (n : Nat), 1 ≤ c.rc → 1 ≤ n →
    (c.state = .rising → c.k + n ≤ c.rc →
      let d := Carrier.tick^[n] c
      d = { c with k := c.k + n, rampEnd := decide (c.k + n = c.rc), justSteady := false } ∧
        d.amplitude = some (c.fr * (c.k + n) / c.rc) ∧
        (c.k + n = c.rc → d.amplitude = some c.fr)) ∧
    (c.state = .falling → n ≤ c.k →
      let d := Carrier.tick^[n] c
      d = { c with k := c.k - n, rampEnd := decide (c.k = n), justSteady := false } ∧
        d.amplitude = some (c.fr * (c.k - n) / c.rc) ∧
        (c.k = n → d.amplitude = some 0))) ∧
  ∀ s : State, s.timebase.wrapDue = false → s.carrier.rampEnd = true →
    (s.carrier.state = .rising →
      let t := s.withCarrier { s.carrier with state := .steady, rampEnd := false, justSteady := true }
      exec .risingComplete s = .next t ∧
        (s.carrier.code = .armed → ∀ label handed, carrierBoundary label handed t = t)) ∧
    (s.carrier.state = .falling →
      exec .fallingComplete s = .next (s.withCarrier { s.carrier with state := .off, rampEnd := false }))

/-- A HALT assertion, by the filter of L1 or by a WRITE_LINES that enables HALT on L1 or inverts it (R173, R174, R180): the
code stops, the word of a RUNNING code is broken, the halt latch and HALT_SEEN are set, and a carrier that is up turns to
FALLING at the lowest k whose amplitude is not below the last sample sent (held at Rc, log 20; within the step that is the
sample word as it stands: the model's choice, log 6), or to OFF at once, so that the next sample is below it; a carrier going
down or OFF stays as it is. -/
def Obligations.HaltTakesTheCarrierDown : Prop :=
  ∀ s : State,
    let amp := s.keying.keyOut.amplitude
    let c := s.carrier
    let halted (t : State) : Prop :=
      t.carrier.code = .off ∧ t.carrier.offAfter = false ∧ t.carrier.haltLatch = true ∧ t.status.haltSeen = true ∧
      haltAsserted t = true ∧
      (c.code = .running → ∀ cw, s.assembler.current = some cw →
        t.assembler.current = some { cw with word := { cw.word with broken := true } }) ∧
      (c.code ≠ .running → t.assembler = s.assembler) ∧
      (c.state = .off ∨ c.state = .falling → t.carrier.state = c.state ∧ t.carrier.k = c.k) ∧
      (c.state = .steady ∨ c.state = .rising →
        let rc := if c.state = .steady then c.rampSetting else c.rc
        let fr := if c.state = .steady then fullInForce s else c.fr
        t.carrier.rc = rc ∧ t.carrier.fr = fr ∧
        (1 ≤ rc → 1 ≤ fr →
          t.carrier.k ≤ rc ∧ (t.carrier.k < rc → rc * amp ≤ fr * t.carrier.k) ∧
          (∀ k, k < t.carrier.k → fr * k < rc * amp) ∧
          (t.carrier.state = if amp = 0 then .off else .falling) ∧
          (amp ≠ 0 → fr * (t.carrier.k - 1) / rc < amp)))
    ((s.line .l1).filterDue = true → (s.line .l1).enables.getLsbD 0 = true → (s.line .l1).filtered = (s.line .l1).invert →
      ∃ t, exec (.lineFilterChange .l1) s = .next t ∧ halted t) ∧
    ∀ (src : Link) (pins : PinIn) (rq : Request) (w : LineSettings), Takes 0x1B src s rq → rq.args.length = 8 →
      permitted s src .lines = true → lineOf (rq.arg 0) = some .l1 → rq.lineSettings .l1 = some w →
      haltAsserted s = false → w.enables.getLsbD 0 = true →
      ((if isOutput s .l1 then pinFound pins .l1 w.pull else (s.line .l1).filtered) ^^ w.invert) = true →
      ∃ t, exec (.writeLines src pins) s = .next t ∧ halted t

/-- The other events of the lines and the pulse inputs (R42, R177 to R181, R184): a filter change moves the line's level, sets
its edge flag when edge select chooses the edge, and hands a rising edge of a routed L6 over as a pulse of source B (the mark
it leaves, which is one for all edges not yet taken, and the command PULSE on L6 that takes it are the model's choice, logs 27
and 50); an edge on PPS_B is then none; a strobe whose timer has run out ends. At most one boundary is formed in a keying step
(R42, R152): FLYWHEEL_WRAP judges a pulse handed over on L6 first (that one with no wrap due changes nothing is the model's
choice, log 1), two edges in one step are judged one after the other before its wrap, and after the step's boundary a pulse
waits for the next keying step, which takes it (that it waits is the model's choice, log 41). -/
def Obligations.LineEventsTakeEffect : Prop :=
  (∀ (n : LineId) (s : State), (s.line n).filterDue = true → isOutput s n = false →
    ∃ t, exec (.lineFilterChange n) s = .next t ∧
      (let rising := !((s.line n).filtered ^^ (s.line n).invert)
      t.line n =
        { s.line n with
          filtered := !(s.line n).filtered
          run := 0
          filterDue := false
          edgeFlag := (s.line n).edgeFlag ||
            ((s.line n).edge == .both || (s.line n).edge == .rising && rising || (s.line n).edge == .falling && !rising) } ∧
      logicalLevel t n = rising ∧ (∀ m, m ≠ n → t.line m = s.line m) ∧
      t.lineUnit.l6Pulse = (s.lineUnit.l6Pulse || (n == .l6 && routedL6 s && rising)) ∧
      (n ≠ .l1 → t.carrier = s.carrier ∧ t.status = s.status ∧ t.assembler = s.assembler))) ∧
  (∀ s : State, s.lineUnit.l6Pulse = true →
    (s.timebase.wrapDue = false →
      exec (.pulse ⟨.lineL6, none⟩) s = .next (takePulse .b (s.withLineUnit { s.lineUnit with l6Pulse := false }))) ∧
    (s.timebase.wrapDue = true → (s.monitor .b).state ≠ .down → (s.line .l6).filterDue = false →
      exec .flywheelWrap s = exec (.pulse ⟨.lineL6, none⟩) s)) ∧
  (∀ s : State, routedL6 s = true → exec (.pulse ⟨.ppsB, none⟩) s = .next s) ∧
  (∀ s : State, s.timebase.wrapDue = false → exec .flywheelWrap s = .next s) ∧
  (∀ (i k : PulseInput) (s t : State), s.timebase.wrapDue = false → exec (.pulse ⟨i, none⟩) s = .next t →
    exec (.pulse ⟨i, some k⟩) s = exec (.pulse ⟨k, none⟩) t) ∧
  (∀ (i : PulseInput) (k : Option PulseInput) (s t : State), s.timebase.wrapDue = true → (pulseSource i s).isSome = true →
    exec (.pulse ⟨i, k⟩) s = .next t → t.timebase.wrapDue = false ∧ t.timebase.formed = .atWrap) ∧
  (∀ (x : Link) (i : PulseInput) (s : State), PulseOn x i s → (s.monitor x).state ≠ .down → pulseWaits s = true →
    s.timebase.wrapDue = false → ∃ t, exec (.pulse ⟨i, none⟩) s = .next t ∧ t.links = s.links ∧ t.keying = s.keying ∧
      t.timeScale = s.timeScale ∧ t.status = s.status ∧
      t.timebase =
        { s.timebase with monitors := s.timebase.monitors.set x { s.monitor x with waiting := true } }) ∧
  (∀ (x : Link) (pins : PinIn) (s t : State), (s.monitor x).waiting = true →
    let s0 := s.setMonitor x { s.monitor x with waiting := false }
    Quiet s0 → exec (.keyingStep pins) s0 = .next t → exec (.keyingStep pins) s = .next (takePulse x t)) ∧
  ∀ (k : Strobe) (s : State), s.lineUnit.strobes.get k = some 0 →
    exec (.strobeEnd k) s = .next (s.withLineUnit { s.lineUnit with strobes := s.lineUnit.strobes.set k none })

/-! ### Invariants: what every step keeps -/

/-- Links, monitors and active source keep their promises at every step (R12, R20, R21, R43, R47, R50, R52, R56, R59). -/
def Obligations.StepKeepsReferences : Prop := ∀ s t : State, ReferenceSound s → step s = .next t → ReferenceSound t

/-- Balance, leap list and label keep agreeing (R61 to R67, R79 to R82), and transition list, civil state and windows keep
their order and ranges (R78, R83, R84, R87, R89), at every step. -/
def Obligations.StepKeepsTimeAndCivilState : Prop :=
  ∀ s t : State, step s = .next t → (TimeSound s → TimeSound t) ∧ (CivilSound s → CivilSound t)

/-- Banks, words and stack keep their promises at every step: above all, the active bank passes every check at every moment,
and every word on air ends in NIL (R108, R110, R119, R134, R136, R142). -/
def Obligations.StepKeepsWords : Prop := ∀ s t : State, WordsSound s → step s = .next t → WordsSound t

/-- The words are those of the minute that the labels name, and each has the length of its minute, at every step (R80, R121,
R126, R127, R130). -/
def Obligations.StepKeepsWordsInTheirMinute : Prop :=
  ∀ s t : State, TimeSound s → WordsSound s → MinuteSound s → step s = .next t → MinuteSound t

/-- Profiles, latch, ramp and samples keep their ranges (R146, R147, R155, R163, R165), and flywheel position and slot sample
index keep together (R40, R150, R152, R156, R157), at every step. -/
def Obligations.StepKeepsEnvelopeAndSlot : Prop :=
  ∀ s t : State, step s = .next t → (EnvelopeSound s → EnvelopeSound t) ∧ (SlotSound s → SlotSound t)

/-- Carrier and code keep agreeing at every step: code runs only on a STEADY carrier, and under a set halt latch or an
asserted HALT the carrier is never up (R165, R167, R168, R171, R173, R174). -/
def Obligations.StepKeepsTheCarrier : Prop := ∀ s t : State, CarrierSound s → step s = .next t → CarrierSound t

/-- The privileged link stays the strap's, PERMISSIONS is never granted, and an awaited restart has its reply on its way, at
every step (R31 to R33, R37, R38). -/
def Obligations.StepKeepsTheExecutor : Prop := ∀ s t : State, ExecutorSound s → step s = .next t → ExecutorSound t

/-- The station lines keep their ranges, and no counter passes 65,535, at every step (R175, R176, R186, R188). -/
def Obligations.StepKeepsLinesAndCounters : Prop :=
  ∀ s t : State, step s = .next t → (LinesSound s → LinesSound t) ∧ (CountersSound s → CountersSound t)

/-- The state after reset meets every invariant. -/
def Obligations.ResetIsSound : Prop :=
  ReferenceSound State.reset ∧ TimeSound State.reset ∧ CivilSound State.reset ∧ WordsSound State.reset ∧
    MinuteSound State.reset ∧ EnvelopeSound State.reset ∧ SlotSound State.reset ∧ CarrierSound State.reset ∧
    ExecutorSound State.reset ∧ LinesSound State.reset ∧ CountersSound State.reset

/-! ### Rules over all commands -/

/-- No command but POWER_ON_RESET moves privilege or the strap result (R31, R185), and no request changes the active bank
(R103). -/
def Obligations.PrivilegeAndActiveBankAreKept : Prop :=
  ∀ (c : Instr) (s t : State), exec c s = .next t →
    ((∀ pins, c ≠ .powerOnReset pins) →
      t.executor.privileged = s.executor.privileged ∧ t.lineUnit.strap = s.lineUnit.strap) ∧
    ((sourceOf c).isSome = true →
      t.assembler.activeBank = s.assembler.activeBank ∧ t.assembler.active1 = s.assembler.active1)

/-- Isolation (R21, R22, R32 to R34): while the permission map is empty, no request of the non-privileged link but READ_STATUS
changes anything except its own link's queue and transmitter end and the last link served. -/
def Obligations.UngrantedLinkChangesNothing : Prop :=
  ∀ (c : Instr) (s t : State) (src : Link), sourceOf c = some src → c ≠ .readStatus src →
    s.executor.permissions = 0 → src ≠ s.executor.privileged → exec c s = .next t →
    ∃ ls : LinkState, t = (s.setLink src ls).withExecutor { s.executor with lastServed := t.executor.lastServed } ∧
      ls = { s.link src with queue := ls.queue, errors := ls.errors, quarantined := ls.quarantined, tx := ls.tx } ∧
      (ls.queue = (s.link src).queue ∨ ls.queue = (s.link src).queue.drop 1)
end

