-- ==== Sys2Proof/Laws/State.lean ====
section
/-! SUPPORT. What each update of the state leaves in each field, true by unfolding, so that no later proof unfolds an update;
and reading back what was stored for a link, a line, a profile or a strobe. -/

namespace Sys2Proof.Machine

/-! ### `withLinks` -/

section

variable (s : State) (x : PerLink LinkState)

@[simp] theorem State.withLinks_links : (s.withLinks x).links = x := rfl
@[simp] theorem State.withLinks_executor : (s.withLinks x).executor = s.executor := rfl
@[simp] theorem State.withLinks_timebase : (s.withLinks x).timebase = s.timebase := rfl
@[simp] theorem State.withLinks_timeScale : (s.withLinks x).timeScale = s.timeScale := rfl
@[simp] theorem State.withLinks_rules : (s.withLinks x).rules = s.rules := rfl
@[simp] theorem State.withLinks_assembler : (s.withLinks x).assembler = s.assembler := rfl
@[simp] theorem State.withLinks_stack : (s.withLinks x).stack = s.stack := rfl
@[simp] theorem State.withLinks_keying : (s.withLinks x).keying = s.keying := rfl
@[simp] theorem State.withLinks_carrier : (s.withLinks x).carrier = s.carrier := rfl
@[simp] theorem State.withLinks_lineUnit : (s.withLinks x).lineUnit = s.lineUnit := rfl
@[simp] theorem State.withLinks_status : (s.withLinks x).status = s.status := rfl
@[simp] theorem State.withLinks_freeDraws : (s.withLinks x).freeDraws = s.freeDraws := rfl
@[simp] theorem State.withLinks_pending : (s.withLinks x).pending = s.pending := rfl
@[simp] theorem State.withLinks_link (l : Link) : (s.withLinks x).link l = x.get l := rfl
@[simp] theorem State.withLinks_monitor (l : Link) : (s.withLinks x).monitor l = s.monitor l := rfl
@[simp] theorem State.withLinks_line (n : LineId) : (s.withLinks x).line n = s.line n := rfl
@[simp] theorem State.withLinks_self : s.withLinks s.links = s := rfl
@[simp] theorem State.withLinks_withLinks (y : PerLink LinkState) : (s.withLinks x).withLinks y = s.withLinks y := rfl

end

/-! ### `withExecutor` -/

section

variable (s : State) (x : Executor)

@[simp] theorem State.withExecutor_links : (s.withExecutor x).links = s.links := rfl
@[simp] theorem State.withExecutor_executor : (s.withExecutor x).executor = x := rfl
@[simp] theorem State.withExecutor_timebase : (s.withExecutor x).timebase = s.timebase := rfl
@[simp] theorem State.withExecutor_timeScale : (s.withExecutor x).timeScale = s.timeScale := rfl
@[simp] theorem State.withExecutor_rules : (s.withExecutor x).rules = s.rules := rfl
@[simp] theorem State.withExecutor_assembler : (s.withExecutor x).assembler = s.assembler := rfl
@[simp] theorem State.withExecutor_stack : (s.withExecutor x).stack = s.stack := rfl
@[simp] theorem State.withExecutor_keying : (s.withExecutor x).keying = s.keying := rfl
@[simp] theorem State.withExecutor_carrier : (s.withExecutor x).carrier = s.carrier := rfl
@[simp] theorem State.withExecutor_lineUnit : (s.withExecutor x).lineUnit = s.lineUnit := rfl
@[simp] theorem State.withExecutor_status : (s.withExecutor x).status = s.status := rfl
@[simp] theorem State.withExecutor_freeDraws : (s.withExecutor x).freeDraws = s.freeDraws := rfl
@[simp] theorem State.withExecutor_pending : (s.withExecutor x).pending = s.pending := rfl
@[simp] theorem State.withExecutor_link (l : Link) : (s.withExecutor x).link l = s.link l := rfl
@[simp] theorem State.withExecutor_monitor (l : Link) : (s.withExecutor x).monitor l = s.monitor l := rfl
@[simp] theorem State.withExecutor_line (n : LineId) : (s.withExecutor x).line n = s.line n := rfl
@[simp] theorem State.withExecutor_self : s.withExecutor s.executor = s := rfl
@[simp] theorem State.withExecutor_withExecutor (y : Executor) : (s.withExecutor x).withExecutor y = s.withExecutor y := rfl

end

/-! ### `withTimebase` -/

section

variable (s : State) (x : Timebase)

@[simp] theorem State.withTimebase_links : (s.withTimebase x).links = s.links := rfl
@[simp] theorem State.withTimebase_executor : (s.withTimebase x).executor = s.executor := rfl
@[simp] theorem State.withTimebase_timebase : (s.withTimebase x).timebase = x := rfl
@[simp] theorem State.withTimebase_timeScale : (s.withTimebase x).timeScale = s.timeScale := rfl
@[simp] theorem State.withTimebase_rules : (s.withTimebase x).rules = s.rules := rfl
@[simp] theorem State.withTimebase_assembler : (s.withTimebase x).assembler = s.assembler := rfl
@[simp] theorem State.withTimebase_stack : (s.withTimebase x).stack = s.stack := rfl
@[simp] theorem State.withTimebase_keying : (s.withTimebase x).keying = s.keying := rfl
@[simp] theorem State.withTimebase_carrier : (s.withTimebase x).carrier = s.carrier := rfl
@[simp] theorem State.withTimebase_lineUnit : (s.withTimebase x).lineUnit = s.lineUnit := rfl
@[simp] theorem State.withTimebase_status : (s.withTimebase x).status = s.status := rfl
@[simp] theorem State.withTimebase_freeDraws : (s.withTimebase x).freeDraws = s.freeDraws := rfl
@[simp] theorem State.withTimebase_pending : (s.withTimebase x).pending = s.pending := rfl
@[simp] theorem State.withTimebase_link (l : Link) : (s.withTimebase x).link l = s.link l := rfl
@[simp] theorem State.withTimebase_monitor (l : Link) : (s.withTimebase x).monitor l = x.monitors.get l := rfl
@[simp] theorem State.withTimebase_line (n : LineId) : (s.withTimebase x).line n = s.line n := rfl
@[simp] theorem State.withTimebase_self : s.withTimebase s.timebase = s := rfl
@[simp] theorem State.withTimebase_withTimebase (y : Timebase) : (s.withTimebase x).withTimebase y = s.withTimebase y := rfl

end

/-! ### `withTimeScale` -/

section

variable (s : State) (x : TimeScale)

@[simp] theorem State.withTimeScale_links : (s.withTimeScale x).links = s.links := rfl
@[simp] theorem State.withTimeScale_executor : (s.withTimeScale x).executor = s.executor := rfl
@[simp] theorem State.withTimeScale_timebase : (s.withTimeScale x).timebase = s.timebase := rfl
@[simp] theorem State.withTimeScale_timeScale : (s.withTimeScale x).timeScale = x := rfl
@[simp] theorem State.withTimeScale_rules : (s.withTimeScale x).rules = s.rules := rfl
@[simp] theorem State.withTimeScale_assembler : (s.withTimeScale x).assembler = s.assembler := rfl
@[simp] theorem State.withTimeScale_stack : (s.withTimeScale x).stack = s.stack := rfl
@[simp] theorem State.withTimeScale_keying : (s.withTimeScale x).keying = s.keying := rfl
@[simp] theorem State.withTimeScale_carrier : (s.withTimeScale x).carrier = s.carrier := rfl
@[simp] theorem State.withTimeScale_lineUnit : (s.withTimeScale x).lineUnit = s.lineUnit := rfl
@[simp] theorem State.withTimeScale_status : (s.withTimeScale x).status = s.status := rfl
@[simp] theorem State.withTimeScale_freeDraws : (s.withTimeScale x).freeDraws = s.freeDraws := rfl
@[simp] theorem State.withTimeScale_pending : (s.withTimeScale x).pending = s.pending := rfl
@[simp] theorem State.withTimeScale_link (l : Link) : (s.withTimeScale x).link l = s.link l := rfl
@[simp] theorem State.withTimeScale_monitor (l : Link) : (s.withTimeScale x).monitor l = s.monitor l := rfl
@[simp] theorem State.withTimeScale_line (n : LineId) : (s.withTimeScale x).line n = s.line n := rfl
@[simp] theorem State.withTimeScale_self : s.withTimeScale s.timeScale = s := rfl
@[simp] theorem State.withTimeScale_withTimeScale (y : TimeScale) : (s.withTimeScale x).withTimeScale y = s.withTimeScale y := rfl

end

/-! ### `withRules` -/

section

variable (s : State) (x : RuleLists)

@[simp] theorem State.withRules_links : (s.withRules x).links = s.links := rfl
@[simp] theorem State.withRules_executor : (s.withRules x).executor = s.executor := rfl
@[simp] theorem State.withRules_timebase : (s.withRules x).timebase = s.timebase := rfl
@[simp] theorem State.withRules_timeScale : (s.withRules x).timeScale = s.timeScale := rfl
@[simp] theorem State.withRules_rules : (s.withRules x).rules = x := rfl
@[simp] theorem State.withRules_assembler : (s.withRules x).assembler = s.assembler := rfl
@[simp] theorem State.withRules_stack : (s.withRules x).stack = s.stack := rfl
@[simp] theorem State.withRules_keying : (s.withRules x).keying = s.keying := rfl
@[simp] theorem State.withRules_carrier : (s.withRules x).carrier = s.carrier := rfl
@[simp] theorem State.withRules_lineUnit : (s.withRules x).lineUnit = s.lineUnit := rfl
@[simp] theorem State.withRules_status : (s.withRules x).status = s.status := rfl
@[simp] theorem State.withRules_freeDraws : (s.withRules x).freeDraws = s.freeDraws := rfl
@[simp] theorem State.withRules_pending : (s.withRules x).pending = s.pending := rfl
@[simp] theorem State.withRules_link (l : Link) : (s.withRules x).link l = s.link l := rfl
@[simp] theorem State.withRules_monitor (l : Link) : (s.withRules x).monitor l = s.monitor l := rfl
@[simp] theorem State.withRules_line (n : LineId) : (s.withRules x).line n = s.line n := rfl
@[simp] theorem State.withRules_self : s.withRules s.rules = s := rfl
@[simp] theorem State.withRules_withRules (y : RuleLists) : (s.withRules x).withRules y = s.withRules y := rfl

end

/-! ### `withAssembler` -/

section

variable (s : State) (x : Assembler)

@[simp] theorem State.withAssembler_links : (s.withAssembler x).links = s.links := rfl
@[simp] theorem State.withAssembler_executor : (s.withAssembler x).executor = s.executor := rfl
@[simp] theorem State.withAssembler_timebase : (s.withAssembler x).timebase = s.timebase := rfl
@[simp] theorem State.withAssembler_timeScale : (s.withAssembler x).timeScale = s.timeScale := rfl
@[simp] theorem State.withAssembler_rules : (s.withAssembler x).rules = s.rules := rfl
@[simp] theorem State.withAssembler_assembler : (s.withAssembler x).assembler = x := rfl
@[simp] theorem State.withAssembler_stack : (s.withAssembler x).stack = s.stack := rfl
@[simp] theorem State.withAssembler_keying : (s.withAssembler x).keying = s.keying := rfl
@[simp] theorem State.withAssembler_carrier : (s.withAssembler x).carrier = s.carrier := rfl
@[simp] theorem State.withAssembler_lineUnit : (s.withAssembler x).lineUnit = s.lineUnit := rfl
@[simp] theorem State.withAssembler_status : (s.withAssembler x).status = s.status := rfl
@[simp] theorem State.withAssembler_freeDraws : (s.withAssembler x).freeDraws = s.freeDraws := rfl
@[simp] theorem State.withAssembler_pending : (s.withAssembler x).pending = s.pending := rfl
@[simp] theorem State.withAssembler_link (l : Link) : (s.withAssembler x).link l = s.link l := rfl
@[simp] theorem State.withAssembler_monitor (l : Link) : (s.withAssembler x).monitor l = s.monitor l := rfl
@[simp] theorem State.withAssembler_line (n : LineId) : (s.withAssembler x).line n = s.line n := rfl
@[simp] theorem State.withAssembler_self : s.withAssembler s.assembler = s := rfl
@[simp] theorem State.withAssembler_withAssembler (y : Assembler) : (s.withAssembler x).withAssembler y = s.withAssembler y := rfl

end

/-! ### `withStack` -/

section

variable (s : State) (x : List OverrideEntry)

@[simp] theorem State.withStack_links : (s.withStack x).links = s.links := rfl
@[simp] theorem State.withStack_executor : (s.withStack x).executor = s.executor := rfl
@[simp] theorem State.withStack_timebase : (s.withStack x).timebase = s.timebase := rfl
@[simp] theorem State.withStack_timeScale : (s.withStack x).timeScale = s.timeScale := rfl
@[simp] theorem State.withStack_rules : (s.withStack x).rules = s.rules := rfl
@[simp] theorem State.withStack_assembler : (s.withStack x).assembler = s.assembler := rfl
@[simp] theorem State.withStack_stack : (s.withStack x).stack = x := rfl
@[simp] theorem State.withStack_keying : (s.withStack x).keying = s.keying := rfl
@[simp] theorem State.withStack_carrier : (s.withStack x).carrier = s.carrier := rfl
@[simp] theorem State.withStack_lineUnit : (s.withStack x).lineUnit = s.lineUnit := rfl
@[simp] theorem State.withStack_status : (s.withStack x).status = s.status := rfl
@[simp] theorem State.withStack_freeDraws : (s.withStack x).freeDraws = s.freeDraws := rfl
@[simp] theorem State.withStack_pending : (s.withStack x).pending = s.pending := rfl
@[simp] theorem State.withStack_link (l : Link) : (s.withStack x).link l = s.link l := rfl
@[simp] theorem State.withStack_monitor (l : Link) : (s.withStack x).monitor l = s.monitor l := rfl
@[simp] theorem State.withStack_line (n : LineId) : (s.withStack x).line n = s.line n := rfl
@[simp] theorem State.withStack_self : s.withStack s.stack = s := rfl
@[simp] theorem State.withStack_withStack (y : List OverrideEntry) : (s.withStack x).withStack y = s.withStack y := rfl

end

/-! ### `withKeying` -/

section

variable (s : State) (x : Keying)

@[simp] theorem State.withKeying_links : (s.withKeying x).links = s.links := rfl
@[simp] theorem State.withKeying_executor : (s.withKeying x).executor = s.executor := rfl
@[simp] theorem State.withKeying_timebase : (s.withKeying x).timebase = s.timebase := rfl
@[simp] theorem State.withKeying_timeScale : (s.withKeying x).timeScale = s.timeScale := rfl
@[simp] theorem State.withKeying_rules : (s.withKeying x).rules = s.rules := rfl
@[simp] theorem State.withKeying_assembler : (s.withKeying x).assembler = s.assembler := rfl
@[simp] theorem State.withKeying_stack : (s.withKeying x).stack = s.stack := rfl
@[simp] theorem State.withKeying_keying : (s.withKeying x).keying = x := rfl
@[simp] theorem State.withKeying_carrier : (s.withKeying x).carrier = s.carrier := rfl
@[simp] theorem State.withKeying_lineUnit : (s.withKeying x).lineUnit = s.lineUnit := rfl
@[simp] theorem State.withKeying_status : (s.withKeying x).status = s.status := rfl
@[simp] theorem State.withKeying_freeDraws : (s.withKeying x).freeDraws = s.freeDraws := rfl
@[simp] theorem State.withKeying_pending : (s.withKeying x).pending = s.pending := rfl
@[simp] theorem State.withKeying_link (l : Link) : (s.withKeying x).link l = s.link l := rfl
@[simp] theorem State.withKeying_monitor (l : Link) : (s.withKeying x).monitor l = s.monitor l := rfl
@[simp] theorem State.withKeying_line (n : LineId) : (s.withKeying x).line n = s.line n := rfl
@[simp] theorem State.withKeying_self : s.withKeying s.keying = s := rfl
@[simp] theorem State.withKeying_withKeying (y : Keying) : (s.withKeying x).withKeying y = s.withKeying y := rfl

end

/-! ### `withCarrier` -/

section

variable (s : State) (x : Carrier)

@[simp] theorem State.withCarrier_links : (s.withCarrier x).links = s.links := rfl
@[simp] theorem State.withCarrier_executor : (s.withCarrier x).executor = s.executor := rfl
@[simp] theorem State.withCarrier_timebase : (s.withCarrier x).timebase = s.timebase := rfl
@[simp] theorem State.withCarrier_timeScale : (s.withCarrier x).timeScale = s.timeScale := rfl
@[simp] theorem State.withCarrier_rules : (s.withCarrier x).rules = s.rules := rfl
@[simp] theorem State.withCarrier_assembler : (s.withCarrier x).assembler = s.assembler := rfl
@[simp] theorem State.withCarrier_stack : (s.withCarrier x).stack = s.stack := rfl
@[simp] theorem State.withCarrier_keying : (s.withCarrier x).keying = s.keying := rfl
@[simp] theorem State.withCarrier_carrier : (s.withCarrier x).carrier = x := rfl
@[simp] theorem State.withCarrier_lineUnit : (s.withCarrier x).lineUnit = s.lineUnit := rfl
@[simp] theorem State.withCarrier_status : (s.withCarrier x).status = s.status := rfl
@[simp] theorem State.withCarrier_freeDraws : (s.withCarrier x).freeDraws = s.freeDraws := rfl
@[simp] theorem State.withCarrier_pending : (s.withCarrier x).pending = s.pending := rfl
@[simp] theorem State.withCarrier_link (l : Link) : (s.withCarrier x).link l = s.link l := rfl
@[simp] theorem State.withCarrier_monitor (l : Link) : (s.withCarrier x).monitor l = s.monitor l := rfl
@[simp] theorem State.withCarrier_line (n : LineId) : (s.withCarrier x).line n = s.line n := rfl
@[simp] theorem State.withCarrier_self : s.withCarrier s.carrier = s := rfl
@[simp] theorem State.withCarrier_withCarrier (y : Carrier) : (s.withCarrier x).withCarrier y = s.withCarrier y := rfl

end

/-! ### `withLineUnit` -/

section

variable (s : State) (x : LineUnit)

@[simp] theorem State.withLineUnit_links : (s.withLineUnit x).links = s.links := rfl
@[simp] theorem State.withLineUnit_executor : (s.withLineUnit x).executor = s.executor := rfl
@[simp] theorem State.withLineUnit_timebase : (s.withLineUnit x).timebase = s.timebase := rfl
@[simp] theorem State.withLineUnit_timeScale : (s.withLineUnit x).timeScale = s.timeScale := rfl
@[simp] theorem State.withLineUnit_rules : (s.withLineUnit x).rules = s.rules := rfl
@[simp] theorem State.withLineUnit_assembler : (s.withLineUnit x).assembler = s.assembler := rfl
@[simp] theorem State.withLineUnit_stack : (s.withLineUnit x).stack = s.stack := rfl
@[simp] theorem State.withLineUnit_keying : (s.withLineUnit x).keying = s.keying := rfl
@[simp] theorem State.withLineUnit_carrier : (s.withLineUnit x).carrier = s.carrier := rfl
@[simp] theorem State.withLineUnit_lineUnit : (s.withLineUnit x).lineUnit = x := rfl
@[simp] theorem State.withLineUnit_status : (s.withLineUnit x).status = s.status := rfl
@[simp] theorem State.withLineUnit_freeDraws : (s.withLineUnit x).freeDraws = s.freeDraws := rfl
@[simp] theorem State.withLineUnit_pending : (s.withLineUnit x).pending = s.pending := rfl
@[simp] theorem State.withLineUnit_link (l : Link) : (s.withLineUnit x).link l = s.link l := rfl
@[simp] theorem State.withLineUnit_monitor (l : Link) : (s.withLineUnit x).monitor l = s.monitor l := rfl
@[simp] theorem State.withLineUnit_line (n : LineId) : (s.withLineUnit x).line n = x.lines.get n := rfl
@[simp] theorem State.withLineUnit_self : s.withLineUnit s.lineUnit = s := rfl
@[simp] theorem State.withLineUnit_withLineUnit (y : LineUnit) : (s.withLineUnit x).withLineUnit y = s.withLineUnit y := rfl

end

/-! ### `withStatus` -/

section

variable (s : State) (x : StatusUnit)

@[simp] theorem State.withStatus_links : (s.withStatus x).links = s.links := rfl
@[simp] theorem State.withStatus_executor : (s.withStatus x).executor = s.executor := rfl
@[simp] theorem State.withStatus_timebase : (s.withStatus x).timebase = s.timebase := rfl
@[simp] theorem State.withStatus_timeScale : (s.withStatus x).timeScale = s.timeScale := rfl
@[simp] theorem State.withStatus_rules : (s.withStatus x).rules = s.rules := rfl
@[simp] theorem State.withStatus_assembler : (s.withStatus x).assembler = s.assembler := rfl
@[simp] theorem State.withStatus_stack : (s.withStatus x).stack = s.stack := rfl
@[simp] theorem State.withStatus_keying : (s.withStatus x).keying = s.keying := rfl
@[simp] theorem State.withStatus_carrier : (s.withStatus x).carrier = s.carrier := rfl
@[simp] theorem State.withStatus_lineUnit : (s.withStatus x).lineUnit = s.lineUnit := rfl
@[simp] theorem State.withStatus_status : (s.withStatus x).status = x := rfl
@[simp] theorem State.withStatus_freeDraws : (s.withStatus x).freeDraws = s.freeDraws := rfl
@[simp] theorem State.withStatus_pending : (s.withStatus x).pending = s.pending := rfl
@[simp] theorem State.withStatus_link (l : Link) : (s.withStatus x).link l = s.link l := rfl
@[simp] theorem State.withStatus_monitor (l : Link) : (s.withStatus x).monitor l = s.monitor l := rfl
@[simp] theorem State.withStatus_line (n : LineId) : (s.withStatus x).line n = s.line n := rfl
@[simp] theorem State.withStatus_self : s.withStatus s.status = s := rfl
@[simp] theorem State.withStatus_withStatus (y : StatusUnit) : (s.withStatus x).withStatus y = s.withStatus y := rfl

end

/-! ### `withFreeDraws` -/

section

variable (s : State) (x : Nat)

@[simp] theorem State.withFreeDraws_links : (s.withFreeDraws x).links = s.links := rfl
@[simp] theorem State.withFreeDraws_executor : (s.withFreeDraws x).executor = s.executor := rfl
@[simp] theorem State.withFreeDraws_timebase : (s.withFreeDraws x).timebase = s.timebase := rfl
@[simp] theorem State.withFreeDraws_timeScale : (s.withFreeDraws x).timeScale = s.timeScale := rfl
@[simp] theorem State.withFreeDraws_rules : (s.withFreeDraws x).rules = s.rules := rfl
@[simp] theorem State.withFreeDraws_assembler : (s.withFreeDraws x).assembler = s.assembler := rfl
@[simp] theorem State.withFreeDraws_stack : (s.withFreeDraws x).stack = s.stack := rfl
@[simp] theorem State.withFreeDraws_keying : (s.withFreeDraws x).keying = s.keying := rfl
@[simp] theorem State.withFreeDraws_carrier : (s.withFreeDraws x).carrier = s.carrier := rfl
@[simp] theorem State.withFreeDraws_lineUnit : (s.withFreeDraws x).lineUnit = s.lineUnit := rfl
@[simp] theorem State.withFreeDraws_status : (s.withFreeDraws x).status = s.status := rfl
@[simp] theorem State.withFreeDraws_freeDraws : (s.withFreeDraws x).freeDraws = x := rfl
@[simp] theorem State.withFreeDraws_pending : (s.withFreeDraws x).pending = s.pending := rfl
@[simp] theorem State.withFreeDraws_link (l : Link) : (s.withFreeDraws x).link l = s.link l := rfl
@[simp] theorem State.withFreeDraws_monitor (l : Link) : (s.withFreeDraws x).monitor l = s.monitor l := rfl
@[simp] theorem State.withFreeDraws_line (n : LineId) : (s.withFreeDraws x).line n = s.line n := rfl
@[simp] theorem State.withFreeDraws_self : s.withFreeDraws s.freeDraws = s := rfl
@[simp] theorem State.withFreeDraws_withFreeDraws (y : Nat) : (s.withFreeDraws x).withFreeDraws y = s.withFreeDraws y := rfl

end

/-! ### `withPending` -/

section

variable (s : State) (x : List Instr)

@[simp] theorem State.withPending_links : (s.withPending x).links = s.links := rfl
@[simp] theorem State.withPending_executor : (s.withPending x).executor = s.executor := rfl
@[simp] theorem State.withPending_timebase : (s.withPending x).timebase = s.timebase := rfl
@[simp] theorem State.withPending_timeScale : (s.withPending x).timeScale = s.timeScale := rfl
@[simp] theorem State.withPending_rules : (s.withPending x).rules = s.rules := rfl
@[simp] theorem State.withPending_assembler : (s.withPending x).assembler = s.assembler := rfl
@[simp] theorem State.withPending_stack : (s.withPending x).stack = s.stack := rfl
@[simp] theorem State.withPending_keying : (s.withPending x).keying = s.keying := rfl
@[simp] theorem State.withPending_carrier : (s.withPending x).carrier = s.carrier := rfl
@[simp] theorem State.withPending_lineUnit : (s.withPending x).lineUnit = s.lineUnit := rfl
@[simp] theorem State.withPending_status : (s.withPending x).status = s.status := rfl
@[simp] theorem State.withPending_freeDraws : (s.withPending x).freeDraws = s.freeDraws := rfl
@[simp] theorem State.withPending_pending : (s.withPending x).pending = x := rfl
@[simp] theorem State.withPending_link (l : Link) : (s.withPending x).link l = s.link l := rfl
@[simp] theorem State.withPending_monitor (l : Link) : (s.withPending x).monitor l = s.monitor l := rfl
@[simp] theorem State.withPending_line (n : LineId) : (s.withPending x).line n = s.line n := rfl
@[simp] theorem State.withPending_self : s.withPending s.pending = s := rfl
@[simp] theorem State.withPending_withPending (y : List Instr) : (s.withPending x).withPending y = s.withPending y := rfl

end

/-! ### One link, one monitor, one line -/

section

variable (s : State) (l : Link) (n : LineId)

@[simp] theorem State.setLink_executor (x : LinkState) : (s.setLink l x).executor = s.executor := rfl
@[simp] theorem State.setLink_timebase (x : LinkState) : (s.setLink l x).timebase = s.timebase := rfl
@[simp] theorem State.setLink_timeScale (x : LinkState) : (s.setLink l x).timeScale = s.timeScale := rfl
@[simp] theorem State.setLink_rules (x : LinkState) : (s.setLink l x).rules = s.rules := rfl
@[simp] theorem State.setLink_assembler (x : LinkState) : (s.setLink l x).assembler = s.assembler := rfl
@[simp] theorem State.setLink_stack (x : LinkState) : (s.setLink l x).stack = s.stack := rfl
@[simp] theorem State.setLink_keying (x : LinkState) : (s.setLink l x).keying = s.keying := rfl
@[simp] theorem State.setLink_carrier (x : LinkState) : (s.setLink l x).carrier = s.carrier := rfl
@[simp] theorem State.setLink_lineUnit (x : LinkState) : (s.setLink l x).lineUnit = s.lineUnit := rfl
@[simp] theorem State.setLink_status (x : LinkState) : (s.setLink l x).status = s.status := rfl
@[simp] theorem State.setLink_freeDraws (x : LinkState) : (s.setLink l x).freeDraws = s.freeDraws := rfl
@[simp] theorem State.setLink_pending (x : LinkState) : (s.setLink l x).pending = s.pending := rfl
@[simp] theorem State.setLink_monitor (x : LinkState) (k : Link) : (s.setLink l x).monitor k = s.monitor k := rfl
@[simp] theorem State.setLink_line (x : LinkState) (k : LineId) : (s.setLink l x).line k = s.line k := rfl
@[simp] theorem State.setMonitor_links (x : Monitor) : (s.setMonitor l x).links = s.links := rfl
@[simp] theorem State.setMonitor_executor (x : Monitor) : (s.setMonitor l x).executor = s.executor := rfl
@[simp] theorem State.setMonitor_timeScale (x : Monitor) : (s.setMonitor l x).timeScale = s.timeScale := rfl
@[simp] theorem State.setMonitor_rules (x : Monitor) : (s.setMonitor l x).rules = s.rules := rfl
@[simp] theorem State.setMonitor_assembler (x : Monitor) : (s.setMonitor l x).assembler = s.assembler := rfl
@[simp] theorem State.setMonitor_stack (x : Monitor) : (s.setMonitor l x).stack = s.stack := rfl
@[simp] theorem State.setMonitor_keying (x : Monitor) : (s.setMonitor l x).keying = s.keying := rfl
@[simp] theorem State.setMonitor_carrier (x : Monitor) : (s.setMonitor l x).carrier = s.carrier := rfl
@[simp] theorem State.setMonitor_lineUnit (x : Monitor) : (s.setMonitor l x).lineUnit = s.lineUnit := rfl
@[simp] theorem State.setMonitor_status (x : Monitor) : (s.setMonitor l x).status = s.status := rfl
@[simp] theorem State.setMonitor_freeDraws (x : Monitor) : (s.setMonitor l x).freeDraws = s.freeDraws := rfl
@[simp] theorem State.setMonitor_pending (x : Monitor) : (s.setMonitor l x).pending = s.pending := rfl
@[simp] theorem State.setMonitor_link (x : Monitor) (k : Link) : (s.setMonitor l x).link k = s.link k := rfl
@[simp] theorem State.setMonitor_line (x : Monitor) (k : LineId) : (s.setMonitor l x).line k = s.line k := rfl
@[simp] theorem State.setLine_links (x : LineState) : (s.setLine n x).links = s.links := rfl
@[simp] theorem State.setLine_executor (x : LineState) : (s.setLine n x).executor = s.executor := rfl
@[simp] theorem State.setLine_timebase (x : LineState) : (s.setLine n x).timebase = s.timebase := rfl
@[simp] theorem State.setLine_timeScale (x : LineState) : (s.setLine n x).timeScale = s.timeScale := rfl
@[simp] theorem State.setLine_rules (x : LineState) : (s.setLine n x).rules = s.rules := rfl
@[simp] theorem State.setLine_assembler (x : LineState) : (s.setLine n x).assembler = s.assembler := rfl
@[simp] theorem State.setLine_stack (x : LineState) : (s.setLine n x).stack = s.stack := rfl
@[simp] theorem State.setLine_keying (x : LineState) : (s.setLine n x).keying = s.keying := rfl
@[simp] theorem State.setLine_carrier (x : LineState) : (s.setLine n x).carrier = s.carrier := rfl
@[simp] theorem State.setLine_status (x : LineState) : (s.setLine n x).status = s.status := rfl
@[simp] theorem State.setLine_freeDraws (x : LineState) : (s.setLine n x).freeDraws = s.freeDraws := rfl
@[simp] theorem State.setLine_pending (x : LineState) : (s.setLine n x).pending = s.pending := rfl
@[simp] theorem State.setLine_link (x : LineState) (k : Link) : (s.setLine n x).link k = s.link k := rfl
@[simp] theorem State.setLine_monitor (x : LineState) (k : Link) : (s.setLine n x).monitor k = s.monitor k := rfl

@[simp] theorem State.setLink_links (x : LinkState) : (s.setLink l x).links = s.links.set l x := rfl
@[simp] theorem State.setMonitor_timebase (x : Monitor) :
    (s.setMonitor l x).timebase = { s.timebase with monitors := s.timebase.monitors.set l x } := rfl
@[simp] theorem State.setLine_lineUnit (x : LineState) :
    (s.setLine n x).lineUnit = { s.lineUnit with lines := s.lineUnit.lines.set n x } := rfl

end

/-! ### Reading back -/

@[simp] theorem Link.other_other (l : Link) : l.other.other = l := by cases l <;> rfl
@[simp] theorem Link.other_ne (l : Link) : l.other ≠ l := by cases l <;> decide
@[simp] theorem Link.ne_other (l : Link) : l ≠ l.other := by cases l <;> decide
/-- There are two links. -/
theorem Link.eq_or_eq_other (l k : Link) : k = l ∨ k = l.other := by cases l <;> cases k <;> decide
theorem Link.eq_other_of_ne {l k : Link} (h : k ≠ l) : k = l.other := (Link.eq_or_eq_other l k).resolve_left h

section

variable {α : Type}

@[simp] theorem PerLink.get_set_same (p : PerLink α) (l : Link) (x : α) : (p.set l x).get l = x := by cases l <;> rfl
@[simp] theorem PerLink.get_set_other (p : PerLink α) (l : Link) (x : α) :
    (p.set l x).get l.other = p.get l.other := by cases l <;> rfl
@[simp] theorem PerLink.get_other_set (p : PerLink α) (l : Link) (x : α) :
    (p.set l.other x).get l = p.get l := by cases l <;> rfl
theorem PerLink.get_set (p : PerLink α) (l k : Link) (x : α) :
    (p.set l x).get k = if k = l then x else p.get k := by cases l <;> cases k <;> rfl
@[simp] theorem PerLink.set_get (p : PerLink α) (l : Link) : p.set l (p.get l) = p := by cases l <;> rfl
@[simp] theorem PerLink.set_set (p : PerLink α) (l : Link) (x y : α) : (p.set l x).set l y = p.set l y := by
  cases l <;> rfl
/-- Two things per link are equal when they are equal at each link. -/
theorem PerLink.eq_of_get {p q : PerLink α} (h : ∀ l, p.get l = q.get l) : p = q := by
  cases p; cases q; exact PerLink.mk.injEq .. |>.mpr ⟨h .a, h .b⟩

@[simp] theorem PerLine.get_set_same (p : PerLine α) (n : LineId) (x : α) : (p.set n x).get n = x := by cases n <;> rfl
theorem PerLine.get_set_ne (p : PerLine α) {n m : LineId} (x : α) (h : m ≠ n) : (p.set n x).get m = p.get m := by
  cases n <;> cases m <;> first | rfl | exact absurd rfl h
theorem PerLine.get_set (p : PerLine α) (n m : LineId) (x : α) :
    (p.set n x).get m = if m = n then x else p.get m := by
  by_cases h : m = n
  · subst h; simp
  · simp [h, PerLine.get_set_ne]
@[simp] theorem PerLine.set_get (p : PerLine α) (n : LineId) : p.set n (p.get n) = p := by cases n <;> rfl
@[simp] theorem PerLine.set_set (p : PerLine α) (n : LineId) (x y : α) : (p.set n x).set n y = p.set n y := by
  cases n <;> rfl
@[simp] theorem PerLine.get_build (f : LineId → α) (n : LineId) : (PerLine.build f).get n = f n := by cases n <;> rfl
theorem PerLine.build_get (p : PerLine α) : PerLine.build p.get = p := rfl

@[simp] theorem PerProfile.get_set_same (p : PerProfile α) (i : Fin 4) (x : α) : (p.set i x).get i = x := by
  fin_cases i <;> rfl
theorem PerProfile.get_set_ne (p : PerProfile α) {i k : Fin 4} (x : α) (h : k ≠ i) : (p.set i x).get k = p.get k := by
  fin_cases i <;> fin_cases k <;> first | rfl | exact absurd rfl h

end

@[simp] theorem Strobes.get_set_same (t : Strobes) (k : Strobe) (v : Option Nat) : (t.set k v).get k = v := by
  cases k <;> rfl
theorem Strobes.get_set_ne (t : Strobes) {k m : Strobe} (v : Option Nat) (h : m ≠ k) : (t.set k v).get m = t.get m := by
  cases k <;> cases m <;> first | rfl | exact absurd rfl h

section

variable (s : State) (l : Link) (n : LineId)

@[simp] theorem State.link_setLink_same (x : LinkState) : (s.setLink l x).link l = x := by simp [State.link]
@[simp] theorem State.link_setLink_other (x : LinkState) : (s.setLink l x).link l.other = s.link l.other := by
  simp [State.link]
@[simp] theorem State.link_other_setLink (x : LinkState) : (s.setLink l.other x).link l = s.link l := by simp [State.link]
theorem State.link_setLink (k : Link) (x : LinkState) : (s.setLink l x).link k = if k = l then x else s.link k := by
  simp [State.link, PerLink.get_set]
@[simp] theorem State.setLink_self : s.setLink l (s.link l) = s := by simp [State.setLink, State.link]
@[simp] theorem State.setLink_setLink (x y : LinkState) : (s.setLink l x).setLink l y = s.setLink l y := by
  simp [State.setLink]
@[simp] theorem State.monitor_setMonitor_same (x : Monitor) : (s.setMonitor l x).monitor l = x := by simp [State.monitor]
@[simp] theorem State.monitor_setMonitor_other (x : Monitor) :
    (s.setMonitor l x).monitor l.other = s.monitor l.other := by simp [State.monitor]
@[simp] theorem State.monitor_other_setMonitor (x : Monitor) :
    (s.setMonitor l.other x).monitor l = s.monitor l := by simp [State.monitor]
@[simp] theorem State.setMonitor_self : s.setMonitor l (s.monitor l) = s := by cases l <;> rfl
@[simp] theorem State.line_setLine_same (x : LineState) : (s.setLine n x).line n = x := by simp [State.line]
theorem State.line_setLine_ne {m : LineId} (x : LineState) (h : m ≠ n) : (s.setLine n x).line m = s.line m := by
  simp [State.line, PerLine.get_set_ne _ _ h]
theorem State.line_setLine (m : LineId) (x : LineState) : (s.setLine n x).line m = if m = n then x else s.line m := by
  simp [State.line, PerLine.get_set]
@[simp] theorem State.setLine_self : s.setLine n (s.line n) = s := by cases n <;> rfl
@[simp] theorem State.setLine_setLine (x y : LineState) : (s.setLine n x).setLine n y = s.setLine n y := by
  simp [State.setLine]

end

/-- Two states are equal when they agree block by block. -/
theorem State.eq_of_fields {s t : State} (h1 : s.links = t.links) (h2 : s.executor = t.executor)
    (h3 : s.timebase = t.timebase) (h4 : s.timeScale = t.timeScale) (h5 : s.rules = t.rules)
    (h6 : s.assembler = t.assembler) (h7 : s.stack = t.stack) (h8 : s.keying = t.keying) (h9 : s.carrier = t.carrier)
    (h10 : s.lineUnit = t.lineUnit) (h11 : s.status = t.status) (h12 : s.freeDraws = t.freeDraws)
    (h13 : s.pending = t.pending) : s = t := by
  cases s; cases t; simp_all

end Sys2Proof.Machine
end

