-- ==== Sys2Proof/Laws/Frames.lean ====
section
/-! SUPPORT. The frame of every shared operation: the blocks it leaves as they are, said once for each. -/

namespace Sys2Proof.Machine

/-! ### Ops -/

/-- Recording an error changes the link and FRAMES_DISCARDED alone (R13, R15). -/
@[simp] theorem recordError_frame (l : Link) (k : ErrKind) (s : State) :
    (recordError l k s).executor = s.executor ∧ (recordError l k s).timebase = s.timebase ∧
    (recordError l k s).timeScale = s.timeScale ∧ (recordError l k s).rules = s.rules ∧
    (recordError l k s).assembler = s.assembler ∧ (recordError l k s).stack = s.stack ∧
    (recordError l k s).keying = s.keying ∧ (recordError l k s).carrier = s.carrier ∧
    (recordError l k s).lineUnit = s.lineUnit ∧ (recordError l k s).freeDraws = s.freeDraws ∧
    (recordError l k s).pending = s.pending ∧ (∀ y, (recordError l k s).monitor y = s.monitor y) ∧
    (∀ y, (recordError l k s).line y = s.line y) := by
  unfold recordError
  try dsimp only
  repeat' split
  all_goals simp

/-- A receive state belongs to its link. -/
@[simp] theorem setRx_frame (l : Link) (rx : RxState) (s : State) :
    (setRx l rx s).executor = s.executor ∧ (setRx l rx s).timebase = s.timebase ∧
    (setRx l rx s).timeScale = s.timeScale ∧ (setRx l rx s).rules = s.rules ∧
    (setRx l rx s).assembler = s.assembler ∧ (setRx l rx s).stack = s.stack ∧ (setRx l rx s).keying = s.keying ∧
    (setRx l rx s).carrier = s.carrier ∧ (setRx l rx s).lineUnit = s.lineUnit ∧ (setRx l rx s).status = s.status ∧
    (setRx l rx s).freeDraws = s.freeDraws ∧ (setRx l rx s).pending = s.pending ∧
    (∀ y, (setRx l rx s).monitor y = s.monitor y) ∧ (∀ y, (setRx l rx s).line y = s.line y) := by
  simp [setRx]

/-- A transmitter state belongs to its link. -/
@[simp] theorem setTx_frame (l : Link) (tx : Tx) (s : State) :
    (setTx l tx s).executor = s.executor ∧ (setTx l tx s).timebase = s.timebase ∧
    (setTx l tx s).timeScale = s.timeScale ∧ (setTx l tx s).rules = s.rules ∧
    (setTx l tx s).assembler = s.assembler ∧ (setTx l tx s).stack = s.stack ∧ (setTx l tx s).keying = s.keying ∧
    (setTx l tx s).carrier = s.carrier ∧ (setTx l tx s).lineUnit = s.lineUnit ∧ (setTx l tx s).status = s.status ∧
    (setTx l tx s).freeDraws = s.freeDraws ∧ (setTx l tx s).pending = s.pending ∧
    (∀ y, (setTx l tx s).monitor y = s.monitor y) ∧ (∀ y, (setTx l tx s).line y = s.line y) := by
  simp [setTx]

/-- A send point changes its link alone (R14). -/
@[simp] theorem sendPoint_frame (l : Link) (r : Reply) (s : State) :
    (sendPoint l r s).executor = s.executor ∧ (sendPoint l r s).timebase = s.timebase ∧
    (sendPoint l r s).timeScale = s.timeScale ∧ (sendPoint l r s).rules = s.rules ∧
    (sendPoint l r s).assembler = s.assembler ∧ (sendPoint l r s).stack = s.stack ∧
    (sendPoint l r s).keying = s.keying ∧ (sendPoint l r s).carrier = s.carrier ∧
    (sendPoint l r s).lineUnit = s.lineUnit ∧ (sendPoint l r s).status = s.status ∧
    (sendPoint l r s).freeDraws = s.freeDraws ∧ (sendPoint l r s).pending = s.pending ∧
    (∀ y, (sendPoint l r s).monitor y = s.monitor y) ∧ (∀ y, (sendPoint l r s).line y = s.line y) := by
  simp [sendPoint]

/-- Taking a reply changes its link alone (R18). -/
@[simp] theorem offerReply_frame (l : Link) (r : Reply) (s : State) :
    (offerReply l r s).executor = s.executor ∧ (offerReply l r s).timebase = s.timebase ∧
    (offerReply l r s).timeScale = s.timeScale ∧ (offerReply l r s).rules = s.rules ∧
    (offerReply l r s).assembler = s.assembler ∧ (offerReply l r s).stack = s.stack ∧
    (offerReply l r s).keying = s.keying ∧ (offerReply l r s).carrier = s.carrier ∧
    (offerReply l r s).lineUnit = s.lineUnit ∧ (offerReply l r s).status = s.status ∧
    (offerReply l r s).freeDraws = s.freeDraws ∧ (offerReply l r s).pending = s.pending ∧
    (∀ y, (offerReply l r s).monitor y = s.monitor y) ∧ (∀ y, (offerReply l r s).line y = s.line y) := by
  unfold offerReply
  try dsimp only
  repeat' split
  all_goals simp

/-- A take removes the head request and turns the arbitration (R26). -/
@[simp] theorem popTaken_frame (src : Link) (s : State) :
    (popTaken src s).timebase = s.timebase ∧ (popTaken src s).timeScale = s.timeScale ∧
    (popTaken src s).rules = s.rules ∧ (popTaken src s).assembler = s.assembler ∧ (popTaken src s).stack = s.stack ∧
    (popTaken src s).keying = s.keying ∧ (popTaken src s).carrier = s.carrier ∧
    (popTaken src s).lineUnit = s.lineUnit ∧ (popTaken src s).status = s.status ∧
    (popTaken src s).freeDraws = s.freeDraws ∧ (popTaken src s).pending = s.pending ∧
    (∀ y, (popTaken src s).monitor y = s.monitor y) ∧ (∀ y, (popTaken src s).line y = s.line y) := by
  simp [popTaken]

/-- Marking the current word broken changes the word and BROKEN_MINUTES alone (R161). -/
@[simp] theorem markBroken_frame (s : State) :
    (markBroken s).links = s.links ∧ (markBroken s).executor = s.executor ∧ (markBroken s).timebase = s.timebase ∧
    (markBroken s).timeScale = s.timeScale ∧ (markBroken s).rules = s.rules ∧ (markBroken s).stack = s.stack ∧
    (markBroken s).keying = s.keying ∧ (markBroken s).carrier = s.carrier ∧ (markBroken s).lineUnit = s.lineUnit ∧
    (markBroken s).freeDraws = s.freeDraws ∧ (markBroken s).pending = s.pending ∧
    (∀ y, (markBroken s).link y = s.link y) ∧ (∀ y, (markBroken s).monitor y = s.monitor y) ∧
    (∀ y, (markBroken s).line y = s.line y) := by
  unfold markBroken
  try dsimp only
  repeat' split
  all_goals simp

/-- Noting that holdover has become limited sets an event flag alone (R190). -/
@[simp] theorem noteLimited_frame (b s : State) :
    (noteLimited b s).links = s.links ∧ (noteLimited b s).executor = s.executor ∧
    (noteLimited b s).timebase = s.timebase ∧ (noteLimited b s).timeScale = s.timeScale ∧
    (noteLimited b s).rules = s.rules ∧ (noteLimited b s).assembler = s.assembler ∧
    (noteLimited b s).stack = s.stack ∧ (noteLimited b s).keying = s.keying ∧ (noteLimited b s).carrier = s.carrier ∧
    (noteLimited b s).lineUnit = s.lineUnit ∧ (noteLimited b s).freeDraws = s.freeDraws ∧
    (noteLimited b s).pending = s.pending ∧ (∀ y, (noteLimited b s).link y = s.link y) ∧
    (∀ y, (noteLimited b s).monitor y = s.monitor y) ∧ (∀ y, (noteLimited b s).line y = s.line y) := by
  unfold noteLimited
  try dsimp only
  repeat' split
  all_goals simp

/-- The leap-hint check changes the last mismatch day and its event flag alone (R93). -/
@[simp] theorem checkHint_frame (f : EpochFrame) (s : State) :
    (checkHint f s).links = s.links ∧ (checkHint f s).executor = s.executor ∧ (checkHint f s).timebase = s.timebase ∧
    (checkHint f s).timeScale = s.timeScale ∧ (checkHint f s).assembler = s.assembler ∧
    (checkHint f s).stack = s.stack ∧ (checkHint f s).keying = s.keying ∧ (checkHint f s).carrier = s.carrier ∧
    (checkHint f s).lineUnit = s.lineUnit ∧ (checkHint f s).freeDraws = s.freeDraws ∧
    (checkHint f s).pending = s.pending ∧ (∀ y, (checkHint f s).link y = s.link y) ∧
    (∀ y, (checkHint f s).monitor y = s.monitor y) ∧ (∀ y, (checkHint f s).line y = s.line y) := by
  unfold checkHint
  try dsimp only
  repeat' split
  all_goals simp

/-! ### Assembly -/

/-- Discarding the pending word changes the assembler alone (R129). -/
@[simp] theorem discardPending_frame (s : State) :
    (discardPending s).links = s.links ∧ (discardPending s).executor = s.executor ∧
    (discardPending s).timebase = s.timebase ∧ (discardPending s).timeScale = s.timeScale ∧
    (discardPending s).rules = s.rules ∧ (discardPending s).stack = s.stack ∧ (discardPending s).keying = s.keying ∧
    (discardPending s).carrier = s.carrier ∧ (discardPending s).lineUnit = s.lineUnit ∧
    (discardPending s).status = s.status ∧ (discardPending s).freeDraws = s.freeDraws ∧
    (discardPending s).pending = s.pending ∧ (∀ y, (discardPending s).link y = s.link y) ∧
    (∀ y, (discardPending s).monitor y = s.monitor y) ∧ (∀ y, (discardPending s).line y = s.line y) := by
  simp [discardPending]

/-- The slot in force belongs to the assembler (R114). -/
@[simp] theorem copySlot_frame (s : State) :
    (copySlot s).links = s.links ∧ (copySlot s).executor = s.executor ∧ (copySlot s).timebase = s.timebase ∧
    (copySlot s).timeScale = s.timeScale ∧ (copySlot s).rules = s.rules ∧ (copySlot s).stack = s.stack ∧
    (copySlot s).keying = s.keying ∧ (copySlot s).carrier = s.carrier ∧ (copySlot s).lineUnit = s.lineUnit ∧
    (copySlot s).status = s.status ∧ (copySlot s).freeDraws = s.freeDraws ∧ (copySlot s).pending = s.pending ∧
    (∀ y, (copySlot s).link y = s.link y) ∧ (∀ y, (copySlot s).monitor y = s.monitor y) ∧
    (∀ y, (copySlot s).line y = s.line y) := by
  simp [copySlot]

/-- The last slot begun belongs to the assembler (R127). -/
@[simp] theorem beginSlot_frame (n : Nat) (s : State) :
    (beginSlot n s).links = s.links ∧ (beginSlot n s).executor = s.executor ∧ (beginSlot n s).timebase = s.timebase ∧
    (beginSlot n s).timeScale = s.timeScale ∧ (beginSlot n s).rules = s.rules ∧ (beginSlot n s).stack = s.stack ∧
    (beginSlot n s).keying = s.keying ∧ (beginSlot n s).carrier = s.carrier ∧ (beginSlot n s).lineUnit = s.lineUnit ∧
    (beginSlot n s).status = s.status ∧ (beginSlot n s).freeDraws = s.freeDraws ∧
    (beginSlot n s).pending = s.pending ∧ (∀ y, (beginSlot n s).link y = s.link y) ∧
    (∀ y, (beginSlot n s).monitor y = s.monitor y) ∧ (∀ y, (beginSlot n s).line y = s.line y) := by
  simp [beginSlot]

/-- The end of a word changes the assembler and the counters alone (R128, R189). -/
@[simp] theorem endCurrent_frame (completed : Bool) (s : State) :
    (endCurrent completed s).links = s.links ∧ (endCurrent completed s).executor = s.executor ∧
    (endCurrent completed s).timebase = s.timebase ∧ (endCurrent completed s).timeScale = s.timeScale ∧
    (endCurrent completed s).rules = s.rules ∧ (endCurrent completed s).stack = s.stack ∧
    (endCurrent completed s).keying = s.keying ∧ (endCurrent completed s).carrier = s.carrier ∧
    (endCurrent completed s).lineUnit = s.lineUnit ∧ (endCurrent completed s).freeDraws = s.freeDraws ∧
    (endCurrent completed s).pending = s.pending ∧ (∀ y, (endCurrent completed s).link y = s.link y) ∧
    (∀ y, (endCurrent completed s).monitor y = s.monitor y) ∧ (∀ y, (endCurrent completed s).line y = s.line y) := by
  unfold endCurrent
  try dsimp only
  repeat' split
  all_goals simp

/-- A marked boundary drops words and the late reference alone (R129). -/
@[simp] theorem dropWords_frame (s : State) :
    (dropWords s).links = s.links ∧ (dropWords s).executor = s.executor ∧ (dropWords s).timebase = s.timebase ∧
    (dropWords s).timeScale = s.timeScale ∧ (dropWords s).stack = s.stack ∧ (dropWords s).keying = s.keying ∧
    (dropWords s).carrier = s.carrier ∧ (dropWords s).lineUnit = s.lineUnit ∧ (dropWords s).freeDraws = s.freeDraws ∧
    (dropWords s).pending = s.pending ∧ (∀ y, (dropWords s).link y = s.link y) ∧
    (∀ y, (dropWords s).monitor y = s.monitor y) ∧ (∀ y, (dropWords s).line y = s.line y) := by
  simp [dropWords]

/-- The hand-over changes the assembler and the counters alone (R126). -/
@[simp] theorem handOver_frame (s : State) :
    (handOver s).links = s.links ∧ (handOver s).executor = s.executor ∧ (handOver s).timebase = s.timebase ∧
    (handOver s).timeScale = s.timeScale ∧ (handOver s).rules = s.rules ∧ (handOver s).stack = s.stack ∧
    (handOver s).keying = s.keying ∧ (handOver s).carrier = s.carrier ∧ (handOver s).lineUnit = s.lineUnit ∧
    (handOver s).freeDraws = s.freeDraws ∧ (handOver s).pending = s.pending ∧ (∀ y, (handOver s).link y = s.link y) ∧
    (∀ y, (handOver s).monitor y = s.monitor y) ∧ (∀ y, (handOver s).line y = s.line y) := by
  simp [handOver]

/-- The start of an assembly changes assembler, late reference and view marks alone (R115, R142). -/
@[simp] theorem startAssembly_frame (lab : Label) (s : State) :
    (startAssembly lab s).links = s.links ∧ (startAssembly lab s).executor = s.executor ∧
    (startAssembly lab s).timebase = s.timebase ∧ (startAssembly lab s).timeScale = s.timeScale ∧
    (startAssembly lab s).keying = s.keying ∧ (startAssembly lab s).carrier = s.carrier ∧
    (startAssembly lab s).lineUnit = s.lineUnit ∧ (startAssembly lab s).status = s.status ∧
    (startAssembly lab s).freeDraws = s.freeDraws ∧ (startAssembly lab s).pending = s.pending ∧
    (∀ y, (startAssembly lab s).link y = s.link y) ∧ (∀ y, (startAssembly lab s).monitor y = s.monitor y) ∧
    (∀ y, (startAssembly lab s).line y = s.line y) := by
  simp [startAssembly]

/-- The completion changes assembler, rule lists and stack alone (R117). -/
@[simp] theorem completeAssembly_frame (s : State) :
    (completeAssembly s).links = s.links ∧ (completeAssembly s).executor = s.executor ∧
    (completeAssembly s).timebase = s.timebase ∧ (completeAssembly s).timeScale = s.timeScale ∧
    (completeAssembly s).keying = s.keying ∧ (completeAssembly s).carrier = s.carrier ∧
    (completeAssembly s).lineUnit = s.lineUnit ∧ (completeAssembly s).status = s.status ∧
    (completeAssembly s).freeDraws = s.freeDraws ∧ (completeAssembly s).pending = s.pending ∧
    (∀ y, (completeAssembly s).link y = s.link y) ∧ (∀ y, (completeAssembly s).monitor y = s.monitor y) ∧
    (∀ y, (completeAssembly s).line y = s.line y) := by
  unfold completeAssembly
  try dsimp only
  repeat' split
  all_goals simp

/-- The assembler's share of a boundary (R126 to R130). -/
@[simp] theorem assemblerBoundary_frame (label : Option Label) (s : State) :
    (assemblerBoundary label s).links = s.links ∧ (assemblerBoundary label s).executor = s.executor ∧
    (assemblerBoundary label s).timebase = s.timebase ∧ (assemblerBoundary label s).timeScale = s.timeScale ∧
    (assemblerBoundary label s).keying = s.keying ∧ (assemblerBoundary label s).carrier = s.carrier ∧
    (assemblerBoundary label s).lineUnit = s.lineUnit ∧ (assemblerBoundary label s).freeDraws = s.freeDraws ∧
    (assemblerBoundary label s).pending = s.pending ∧ (∀ y, (assemblerBoundary label s).link y = s.link y) ∧
    (∀ y, (assemblerBoundary label s).monitor y = s.monitor y) ∧
    (∀ y, (assemblerBoundary label s).line y = s.line y) := by
  unfold assemblerBoundary
  try dsimp only
  repeat' split
  all_goals simp

/-! ### Keying and carrier -/

/-- A keying step of the line unit changes the line unit alone (R178, R181). -/
@[simp] theorem lineStep_frame (pins : PinIn) (s : State) :
    (lineStep pins s).links = s.links ∧ (lineStep pins s).executor = s.executor ∧
    (lineStep pins s).timebase = s.timebase ∧ (lineStep pins s).timeScale = s.timeScale ∧
    (lineStep pins s).rules = s.rules ∧ (lineStep pins s).assembler = s.assembler ∧
    (lineStep pins s).stack = s.stack ∧ (lineStep pins s).keying = s.keying ∧ (lineStep pins s).carrier = s.carrier ∧
    (lineStep pins s).status = s.status ∧ (lineStep pins s).freeDraws = s.freeDraws ∧
    (lineStep pins s).pending = s.pending ∧ (∀ y, (lineStep pins s).link y = s.link y) ∧
    (∀ y, (lineStep pins s).monitor y = s.monitor y) := by
  simp [lineStep]

/-- Strobes belong to the line unit (R181). -/
@[simp] theorem startStrobes_frame (label : Option Label) (s : State) :
    (startStrobes label s).links = s.links ∧ (startStrobes label s).executor = s.executor ∧
    (startStrobes label s).timebase = s.timebase ∧ (startStrobes label s).timeScale = s.timeScale ∧
    (startStrobes label s).rules = s.rules ∧ (startStrobes label s).assembler = s.assembler ∧
    (startStrobes label s).stack = s.stack ∧ (startStrobes label s).keying = s.keying ∧
    (startStrobes label s).carrier = s.carrier ∧ (startStrobes label s).status = s.status ∧
    (startStrobes label s).freeDraws = s.freeDraws ∧ (startStrobes label s).pending = s.pending ∧
    (∀ y, (startStrobes label s).link y = s.link y) ∧ (∀ y, (startStrobes label s).monitor y = s.monitor y) := by
  unfold startStrobes
  try dsimp only
  repeat' split
  all_goals simp

/-- Strobes belong to the line unit (R181). -/
@[simp] theorem endStrobe_frame (k : Strobe) (s : State) :
    (endStrobe k s).links = s.links ∧ (endStrobe k s).executor = s.executor ∧ (endStrobe k s).timebase = s.timebase ∧
    (endStrobe k s).timeScale = s.timeScale ∧ (endStrobe k s).rules = s.rules ∧
    (endStrobe k s).assembler = s.assembler ∧ (endStrobe k s).stack = s.stack ∧ (endStrobe k s).keying = s.keying ∧
    (endStrobe k s).carrier = s.carrier ∧ (endStrobe k s).status = s.status ∧
    (endStrobe k s).freeDraws = s.freeDraws ∧ (endStrobe k s).pending = s.pending ∧
    (∀ y, (endStrobe k s).link y = s.link y) ∧ (∀ y, (endStrobe k s).monitor y = s.monitor y) := by
  unfold endStrobe
  try dsimp only
  repeat' split
  all_goals simp

/-- A sample word belongs to the keying generator (R153). -/
@[simp] theorem formSample_frame (a b : Bool) (s : State) :
    (formSample a b s).links = s.links ∧ (formSample a b s).executor = s.executor ∧
    (formSample a b s).timebase = s.timebase ∧ (formSample a b s).timeScale = s.timeScale ∧
    (formSample a b s).rules = s.rules ∧ (formSample a b s).assembler = s.assembler ∧
    (formSample a b s).stack = s.stack ∧ (formSample a b s).carrier = s.carrier ∧
    (formSample a b s).lineUnit = s.lineUnit ∧ (formSample a b s).status = s.status ∧
    (formSample a b s).freeDraws = s.freeDraws ∧ (formSample a b s).pending = s.pending ∧
    (∀ y, (formSample a b s).link y = s.link y) ∧ (∀ y, (formSample a b s).monitor y = s.monitor y) ∧
    (∀ y, (formSample a b s).line y = s.line y) := by
  simp [formSample]

/-- A re-alignment changes the keying generator alone (R156). -/
@[simp] theorem realign_frame (s : State) :
    (realign s).links = s.links ∧ (realign s).executor = s.executor ∧ (realign s).timebase = s.timebase ∧
    (realign s).timeScale = s.timeScale ∧ (realign s).rules = s.rules ∧ (realign s).assembler = s.assembler ∧
    (realign s).stack = s.stack ∧ (realign s).carrier = s.carrier ∧ (realign s).lineUnit = s.lineUnit ∧
    (realign s).status = s.status ∧ (realign s).freeDraws = s.freeDraws ∧ (realign s).pending = s.pending ∧
    (∀ y, (realign s).link y = s.link y) ∧ (∀ y, (realign s).monitor y = s.monitor y) ∧
    (∀ y, (realign s).line y = s.line y) := by
  simp [realign]

/-- A slot start changes the keying generator, and a suppressed word with its counter (R150, R161). -/
@[simp] theorem slotStart_frame (label : Option Label) (s : State) :
    (slotStart label s).links = s.links ∧ (slotStart label s).executor = s.executor ∧
    (slotStart label s).timebase = s.timebase ∧ (slotStart label s).timeScale = s.timeScale ∧
    (slotStart label s).rules = s.rules ∧ (slotStart label s).stack = s.stack ∧
    (slotStart label s).carrier = s.carrier ∧ (slotStart label s).lineUnit = s.lineUnit ∧
    (slotStart label s).freeDraws = s.freeDraws ∧ (slotStart label s).pending = s.pending ∧
    (∀ y, (slotStart label s).link y = s.link y) ∧ (∀ y, (slotStart label s).monitor y = s.monitor y) ∧
    (∀ y, (slotStart label s).line y = s.line y) := by
  unfold slotStart
  try dsimp only
  repeat' split
  all_goals simp

/-- Rc and Fr belong to carrier control (R164). -/
@[simp] theorem beginRamp_frame (s : State) :
    (beginRamp s).links = s.links ∧ (beginRamp s).executor = s.executor ∧ (beginRamp s).timebase = s.timebase ∧
    (beginRamp s).timeScale = s.timeScale ∧ (beginRamp s).rules = s.rules ∧ (beginRamp s).assembler = s.assembler ∧
    (beginRamp s).stack = s.stack ∧ (beginRamp s).keying = s.keying ∧ (beginRamp s).lineUnit = s.lineUnit ∧
    (beginRamp s).status = s.status ∧ (beginRamp s).freeDraws = s.freeDraws ∧ (beginRamp s).pending = s.pending ∧
    (∀ y, (beginRamp s).link y = s.link y) ∧ (∀ y, (beginRamp s).monitor y = s.monitor y) ∧
    (∀ y, (beginRamp s).line y = s.line y) := by
  simp [beginRamp]

/-- The end of a rise changes carrier control alone (R165). -/
@[simp] theorem completeRising_frame (s : State) :
    (completeRising s).links = s.links ∧ (completeRising s).executor = s.executor ∧
    (completeRising s).timebase = s.timebase ∧ (completeRising s).timeScale = s.timeScale ∧
    (completeRising s).rules = s.rules ∧ (completeRising s).assembler = s.assembler ∧
    (completeRising s).stack = s.stack ∧ (completeRising s).keying = s.keying ∧
    (completeRising s).lineUnit = s.lineUnit ∧ (completeRising s).status = s.status ∧
    (completeRising s).freeDraws = s.freeDraws ∧ (completeRising s).pending = s.pending ∧
    (∀ y, (completeRising s).link y = s.link y) ∧ (∀ y, (completeRising s).monitor y = s.monitor y) ∧
    (∀ y, (completeRising s).line y = s.line y) := by
  unfold completeRising
  try dsimp only
  repeat' split
  all_goals simp

/-- The end of a fall changes carrier control alone (R165). -/
@[simp] theorem completeFalling_frame (s : State) :
    (completeFalling s).links = s.links ∧ (completeFalling s).executor = s.executor ∧
    (completeFalling s).timebase = s.timebase ∧ (completeFalling s).timeScale = s.timeScale ∧
    (completeFalling s).rules = s.rules ∧ (completeFalling s).assembler = s.assembler ∧
    (completeFalling s).stack = s.stack ∧ (completeFalling s).keying = s.keying ∧
    (completeFalling s).lineUnit = s.lineUnit ∧ (completeFalling s).status = s.status ∧
    (completeFalling s).freeDraws = s.freeDraws ∧ (completeFalling s).pending = s.pending ∧
    (∀ y, (completeFalling s).link y = s.link y) ∧ (∀ y, (completeFalling s).monitor y = s.monitor y) ∧
    (∀ y, (completeFalling s).line y = s.line y) := by
  unfold completeFalling
  try dsimp only
  repeat' split
  all_goals simp

/-- A fall at a boundary changes carrier control and the step's amplitude alone (R171). -/
@[simp] theorem fallAtBoundary_frame (s : State) :
    (fallAtBoundary s).links = s.links ∧ (fallAtBoundary s).executor = s.executor ∧
    (fallAtBoundary s).timebase = s.timebase ∧ (fallAtBoundary s).timeScale = s.timeScale ∧
    (fallAtBoundary s).rules = s.rules ∧ (fallAtBoundary s).assembler = s.assembler ∧
    (fallAtBoundary s).stack = s.stack ∧ (fallAtBoundary s).lineUnit = s.lineUnit ∧
    (fallAtBoundary s).status = s.status ∧ (fallAtBoundary s).freeDraws = s.freeDraws ∧
    (fallAtBoundary s).pending = s.pending ∧ (∀ y, (fallAtBoundary s).link y = s.link y) ∧
    (∀ y, (fallAtBoundary s).monitor y = s.monitor y) ∧ (∀ y, (fallAtBoundary s).line y = s.line y) := by
  simp [fallAtBoundary]

/-- Carrier control's share of a boundary (R170, R171). -/
@[simp] theorem carrierBoundary_frame (label : Option Label) (handed : Bool) (s : State) :
    (carrierBoundary label handed s).links = s.links ∧ (carrierBoundary label handed s).executor = s.executor ∧
    (carrierBoundary label handed s).timebase = s.timebase ∧
    (carrierBoundary label handed s).timeScale = s.timeScale ∧ (carrierBoundary label handed s).rules = s.rules ∧
    (carrierBoundary label handed s).assembler = s.assembler ∧ (carrierBoundary label handed s).stack = s.stack ∧
    (carrierBoundary label handed s).lineUnit = s.lineUnit ∧ (carrierBoundary label handed s).status = s.status ∧
    (carrierBoundary label handed s).freeDraws = s.freeDraws ∧ (carrierBoundary label handed s).pending = s.pending ∧
    (∀ y, (carrierBoundary label handed s).link y = s.link y) ∧
    (∀ y, (carrierBoundary label handed s).monitor y = s.monitor y) ∧
    (∀ y, (carrierBoundary label handed s).line y = s.line y) := by
  unfold carrierBoundary
  try dsimp only
  repeat' split
  all_goals simp

/-- A fall changes carrier control alone (R173). -/
@[simp] theorem fallFrom_frame (k : Nat) (s : State) :
    (fallFrom k s).links = s.links ∧ (fallFrom k s).executor = s.executor ∧ (fallFrom k s).timebase = s.timebase ∧
    (fallFrom k s).timeScale = s.timeScale ∧ (fallFrom k s).rules = s.rules ∧
    (fallFrom k s).assembler = s.assembler ∧ (fallFrom k s).stack = s.stack ∧ (fallFrom k s).keying = s.keying ∧
    (fallFrom k s).lineUnit = s.lineUnit ∧ (fallFrom k s).status = s.status ∧
    (fallFrom k s).freeDraws = s.freeDraws ∧ (fallFrom k s).pending = s.pending ∧
    (∀ y, (fallFrom k s).link y = s.link y) ∧ (∀ y, (fallFrom k s).monitor y = s.monitor y) ∧
    (∀ y, (fallFrom k s).line y = s.line y) := by
  unfold fallFrom
  try dsimp only
  repeat' split
  all_goals simp

/-- A HALT assertion changes carrier control, a running word and the status unit alone (R173). -/
@[simp] theorem haltAssertion_frame (s : State) :
    (haltAssertion s).links = s.links ∧ (haltAssertion s).executor = s.executor ∧
    (haltAssertion s).timebase = s.timebase ∧ (haltAssertion s).timeScale = s.timeScale ∧
    (haltAssertion s).rules = s.rules ∧ (haltAssertion s).stack = s.stack ∧ (haltAssertion s).keying = s.keying ∧
    (haltAssertion s).lineUnit = s.lineUnit ∧ (haltAssertion s).freeDraws = s.freeDraws ∧
    (haltAssertion s).pending = s.pending ∧ (∀ y, (haltAssertion s).link y = s.link y) ∧
    (∀ y, (haltAssertion s).monitor y = s.monitor y) ∧ (∀ y, (haltAssertion s).line y = s.line y) := by
  unfold haltAssertion; dsimp only; split <;> split <;> simp

/-- A HALT assertion changes carrier control, a running word and the status unit alone (R173). -/
@[simp] theorem noteHalt_frame (b s : State) :
    (noteHalt b s).links = s.links ∧ (noteHalt b s).executor = s.executor ∧ (noteHalt b s).timebase = s.timebase ∧
    (noteHalt b s).timeScale = s.timeScale ∧ (noteHalt b s).rules = s.rules ∧ (noteHalt b s).stack = s.stack ∧
    (noteHalt b s).keying = s.keying ∧ (noteHalt b s).lineUnit = s.lineUnit ∧
    (noteHalt b s).freeDraws = s.freeDraws ∧ (noteHalt b s).pending = s.pending ∧
    (∀ y, (noteHalt b s).link y = s.link y) ∧ (∀ y, (noteHalt b s).monitor y = s.monitor y) ∧
    (∀ y, (noteHalt b s).line y = s.line y) := by
  unfold noteHalt
  try dsimp only
  repeat' split
  all_goals simp

/-! ### Boundary and timebase -/

/-- The timebase's and the time scale unit's share of a boundary (R65). -/
@[simp] theorem timeBoundary_frame (cause : BoundaryCause) (s : State) :
    (timeBoundary cause s).links = s.links ∧ (timeBoundary cause s).executor = s.executor ∧
    (timeBoundary cause s).assembler = s.assembler ∧ (timeBoundary cause s).stack = s.stack ∧
    (timeBoundary cause s).keying = s.keying ∧ (timeBoundary cause s).carrier = s.carrier ∧
    (timeBoundary cause s).lineUnit = s.lineUnit ∧ (timeBoundary cause s).status = s.status ∧
    (timeBoundary cause s).freeDraws = s.freeDraws ∧ (timeBoundary cause s).pending = s.pending ∧
    (∀ y, (timeBoundary cause s).link y = s.link y) ∧ (∀ y, (timeBoundary cause s).line y = s.line y) := by
  simp [timeBoundary]

/-- A boundary leaves the links and the executor as they are (R41). -/
@[simp] theorem secondBoundary_frame (cause : BoundaryCause) (s : State) :
    (secondBoundary cause s).links = s.links ∧ (secondBoundary cause s).executor = s.executor ∧
    (secondBoundary cause s).freeDraws = s.freeDraws ∧ (secondBoundary cause s).pending = s.pending ∧
    (∀ y, (secondBoundary cause s).link y = s.link y) := by
  simp [secondBoundary]

/-- A wrap leaves the links and the executor as they are (R41). -/
@[simp] theorem takeWrap_frame (s : State) :
    (takeWrap s).links = s.links ∧ (takeWrap s).executor = s.executor ∧ (takeWrap s).freeDraws = s.freeDraws ∧
    (takeWrap s).pending = s.pending ∧ (∀ y, (takeWrap s).link y = s.link y) := by
  unfold takeWrap
  try dsimp only
  repeat' split
  all_goals simp

/-- A bad second changes the timebase and the status unit alone (R46, R49). -/
@[simp] theorem badSecond_frame (x : Link) (s : State) :
    (badSecond x s).links = s.links ∧ (badSecond x s).executor = s.executor ∧
    (badSecond x s).timeScale = s.timeScale ∧ (badSecond x s).rules = s.rules ∧
    (badSecond x s).assembler = s.assembler ∧ (badSecond x s).stack = s.stack ∧ (badSecond x s).keying = s.keying ∧
    (badSecond x s).carrier = s.carrier ∧ (badSecond x s).lineUnit = s.lineUnit ∧
    (badSecond x s).freeDraws = s.freeDraws ∧ (badSecond x s).pending = s.pending ∧
    (∀ y, (badSecond x s).link y = s.link y) ∧ (∀ y, (badSecond x s).line y = s.line y) := by
  unfold badSecond
  try dsimp only
  repeat' split
  all_goals simp

/-- Setting the phase changes the timebase alone (R48). -/
@[simp] theorem setPhase_frame (x : Link) (s : State) :
    (setPhase x s).links = s.links ∧ (setPhase x s).executor = s.executor ∧ (setPhase x s).timeScale = s.timeScale ∧
    (setPhase x s).rules = s.rules ∧ (setPhase x s).assembler = s.assembler ∧ (setPhase x s).stack = s.stack ∧
    (setPhase x s).keying = s.keying ∧ (setPhase x s).carrier = s.carrier ∧ (setPhase x s).lineUnit = s.lineUnit ∧
    (setPhase x s).status = s.status ∧ (setPhase x s).freeDraws = s.freeDraws ∧ (setPhase x s).pending = s.pending ∧
    (∀ y, (setPhase x s).link y = s.link y) ∧ (∀ y, (setPhase x s).line y = s.line y) := by
  simp [setPhase]

/-- Steering leaves the links and the executor as they are (R48). -/
@[simp] theorem steer_frame (x : Link) (e : Int) (s : State) :
    (steer x e s).links = s.links ∧ (steer x e s).executor = s.executor ∧ (steer x e s).freeDraws = s.freeDraws ∧
    (steer x e s).pending = s.pending ∧ (∀ y, (steer x e s).link y = s.link y) := by
  unfold steer
  try dsimp only
  repeat' split
  all_goals simp

/-- Making a source active changes the timebase alone (R50). -/
@[simp] theorem activate_frame (x : Link) (s : State) :
    (activate x s).links = s.links ∧ (activate x s).executor = s.executor ∧ (activate x s).timeScale = s.timeScale ∧
    (activate x s).rules = s.rules ∧ (activate x s).assembler = s.assembler ∧ (activate x s).stack = s.stack ∧
    (activate x s).keying = s.keying ∧ (activate x s).carrier = s.carrier ∧ (activate x s).lineUnit = s.lineUnit ∧
    (activate x s).status = s.status ∧ (activate x s).freeDraws = s.freeDraws ∧ (activate x s).pending = s.pending ∧
    (∀ y, (activate x s).link y = s.link y) ∧ (∀ y, (activate x s).line y = s.line y) := by
  unfold activate
  try dsimp only
  repeat' split
  all_goals simp

/-- An adoption leaves the links and the executor as they are (R50). -/
@[simp] theorem adopt_frame (x : Link) (f : EpochFrame) (e : Int) (s : State) :
    (adopt x f e s).links = s.links ∧ (adopt x f e s).executor = s.executor ∧
    (adopt x f e s).freeDraws = s.freeDraws ∧ (adopt x f e s).pending = s.pending ∧
    (∀ y, (adopt x f e s).link y = s.link y) := by
  unfold adopt
  try dsimp only
  repeat' split
  all_goals simp

/-- The revertive test leaves the links and the executor as they are (R55). -/
@[simp] theorem revertiveTest_frame (x : Link) (f : EpochFrame) (e : Int) (s : State) :
    (revertiveTest x f e s).links = s.links ∧ (revertiveTest x f e s).executor = s.executor ∧
    (revertiveTest x f e s).freeDraws = s.freeDraws ∧ (revertiveTest x f e s).pending = s.pending ∧
    (∀ y, (revertiveTest x f e s).link y = s.link y) := by
  unfold revertiveTest
  try dsimp only
  repeat' split
  all_goals simp

/-- A good second leaves the links and the executor as they are (R46). -/
@[simp] theorem goodSecond_frame (x : Link) (f : EpochFrame) (e : Int) (s : State) :
    (goodSecond x f e s).links = s.links ∧ (goodSecond x f e s).executor = s.executor ∧
    (goodSecond x f e s).freeDraws = s.freeDraws ∧ (goodSecond x f e s).pending = s.pending ∧
    (∀ y, (goodSecond x f e s).link y = s.link y) := by
  unfold goodSecond
  try dsimp only
  repeat' split
  all_goals simp

/-- A starting second changes the timebase alone (R46). -/
@[simp] theorem startingSecond_frame (x : Link) (f : EpochFrame) (e : Int) (s : State) :
    (startingSecond x f e s).links = s.links ∧ (startingSecond x f e s).executor = s.executor ∧
    (startingSecond x f e s).timeScale = s.timeScale ∧ (startingSecond x f e s).rules = s.rules ∧
    (startingSecond x f e s).assembler = s.assembler ∧ (startingSecond x f e s).stack = s.stack ∧
    (startingSecond x f e s).keying = s.keying ∧ (startingSecond x f e s).carrier = s.carrier ∧
    (startingSecond x f e s).lineUnit = s.lineUnit ∧ (startingSecond x f e s).status = s.status ∧
    (startingSecond x f e s).freeDraws = s.freeDraws ∧ (startingSecond x f e s).pending = s.pending ∧
    (∀ y, (startingSecond x f e s).link y = s.link y) ∧ (∀ y, (startingSecond x f e s).line y = s.line y) := by
  simp [startingSecond]

/-- Consuming the latch changes the link and the timer alone (R44, R45). -/
@[simp] theorem consumePulse_frame (x : Link) (s : State) :
    (consumePulse x s).executor = s.executor ∧ (consumePulse x s).timeScale = s.timeScale ∧
    (consumePulse x s).rules = s.rules ∧ (consumePulse x s).assembler = s.assembler ∧
    (consumePulse x s).stack = s.stack ∧ (consumePulse x s).keying = s.keying ∧
    (consumePulse x s).carrier = s.carrier ∧ (consumePulse x s).lineUnit = s.lineUnit ∧
    (consumePulse x s).status = s.status ∧ (consumePulse x s).freeDraws = s.freeDraws ∧
    (consumePulse x s).pending = s.pending ∧ (∀ y, (consumePulse x s).line y = s.line y) := by
  simp [consumePulse]

/-- What a consumed frame brings before the judgement (R44, R93). -/
@[simp] theorem noteFrame_frame (x : Link) (f : Option EpochFrame) (s : State) :
    (noteFrame x f s).executor = s.executor ∧ (noteFrame x f s).timebase = s.timebase ∧
    (noteFrame x f s).timeScale = s.timeScale ∧ (noteFrame x f s).assembler = s.assembler ∧
    (noteFrame x f s).stack = s.stack ∧ (noteFrame x f s).keying = s.keying ∧ (noteFrame x f s).carrier = s.carrier ∧
    (noteFrame x f s).lineUnit = s.lineUnit ∧ (noteFrame x f s).freeDraws = s.freeDraws ∧
    (noteFrame x f s).pending = s.pending ∧ (∀ y, (noteFrame x f s).monitor y = s.monitor y) ∧
    (∀ y, (noteFrame x f s).line y = s.line y) := by
  unfold noteFrame
  try dsimp only
  repeat' split
  all_goals simp

/-- A stray pulse is counted, and nothing else (R44). -/
@[simp] theorem noteStray_frame (x : Link) (e : Int) (s : State) :
    (noteStray x e s).links = s.links ∧ (noteStray x e s).executor = s.executor ∧
    (noteStray x e s).timebase = s.timebase ∧ (noteStray x e s).timeScale = s.timeScale ∧
    (noteStray x e s).rules = s.rules ∧ (noteStray x e s).assembler = s.assembler ∧
    (noteStray x e s).stack = s.stack ∧ (noteStray x e s).keying = s.keying ∧ (noteStray x e s).carrier = s.carrier ∧
    (noteStray x e s).lineUnit = s.lineUnit ∧ (noteStray x e s).freeDraws = s.freeDraws ∧
    (noteStray x e s).pending = s.pending ∧ (∀ y, (noteStray x e s).link y = s.link y) ∧
    (∀ y, (noteStray x e s).monitor y = s.monitor y) ∧ (∀ y, (noteStray x e s).line y = s.line y) := by
  unfold noteStray
  try dsimp only
  repeat' split
  all_goals simp

/-- The judgement and handling of a pulse leave the executor as it is (R42). -/
@[simp] theorem judgeSecond_frame (x : Link) (s : State) :
    (judgeSecond x s).executor = s.executor ∧ (judgeSecond x s).freeDraws = s.freeDraws ∧
    (judgeSecond x s).pending = s.pending := by
  unfold judgeSecond
  try dsimp only
  repeat' split
  all_goals simp

/-- A pulse leaves the executor as it is (R42). -/
@[simp] theorem takePulse_frame (x : Link) (s : State) :
    (takePulse x s).executor = s.executor ∧ (takePulse x s).freeDraws = s.freeDraws ∧
    (takePulse x s).pending = s.pending := by
  unfold takePulse
  try dsimp only
  repeat' split
  all_goals simp

/-- A pulse that waited leaves the executor as it is (R42). -/
@[simp] theorem takeWaiting_frame (x : Link) (s : State) :
    (takeWaiting x s).executor = s.executor ∧ (takeWaiting x s).freeDraws = s.freeDraws ∧
    (takeWaiting x s).pending = s.pending := by
  unfold takeWaiting
  try dsimp only
  repeat' split
  all_goals simp

/-- A missing second changes the timebase and the status unit alone (R45). -/
@[simp] theorem takeMissing_frame (x : Link) (s : State) :
    (takeMissing x s).links = s.links ∧ (takeMissing x s).executor = s.executor ∧
    (takeMissing x s).timeScale = s.timeScale ∧ (takeMissing x s).rules = s.rules ∧
    (takeMissing x s).assembler = s.assembler ∧ (takeMissing x s).stack = s.stack ∧
    (takeMissing x s).keying = s.keying ∧ (takeMissing x s).carrier = s.carrier ∧
    (takeMissing x s).lineUnit = s.lineUnit ∧ (takeMissing x s).freeDraws = s.freeDraws ∧
    (takeMissing x s).pending = s.pending ∧ (∀ y, (takeMissing x s).link y = s.link y) ∧
    (∀ y, (takeMissing x s).line y = s.line y) := by
  unfold takeMissing
  try dsimp only
  repeat' split
  all_goals simp

/-! ### Lines, receivers and transmitters -/

/-- An edge changes the line unit alone (R179). -/
@[simp] theorem noteEdge_frame (n : LineId) (r q : Bool) (s : State) :
    (noteEdge n r q s).links = s.links ∧ (noteEdge n r q s).executor = s.executor ∧
    (noteEdge n r q s).timebase = s.timebase ∧ (noteEdge n r q s).timeScale = s.timeScale ∧
    (noteEdge n r q s).rules = s.rules ∧ (noteEdge n r q s).assembler = s.assembler ∧
    (noteEdge n r q s).stack = s.stack ∧ (noteEdge n r q s).keying = s.keying ∧
    (noteEdge n r q s).carrier = s.carrier ∧ (noteEdge n r q s).status = s.status ∧
    (noteEdge n r q s).freeDraws = s.freeDraws ∧ (noteEdge n r q s).pending = s.pending ∧
    (∀ y, (noteEdge n r q s).link y = s.link y) ∧ (∀ y, (noteEdge n r q s).monitor y = s.monitor y) := by
  unfold noteEdge
  try dsimp only
  repeat' split
  all_goals simp

/-- A filter change changes the line unit, and what a HALT assertion does (R178, R180). -/
@[simp] theorem takeFilterChange_frame (n : LineId) (s : State) :
    (takeFilterChange n s).links = s.links ∧ (takeFilterChange n s).executor = s.executor ∧
    (takeFilterChange n s).timebase = s.timebase ∧ (takeFilterChange n s).timeScale = s.timeScale ∧
    (takeFilterChange n s).rules = s.rules ∧ (takeFilterChange n s).stack = s.stack ∧
    (takeFilterChange n s).keying = s.keying ∧ (takeFilterChange n s).freeDraws = s.freeDraws ∧
    (takeFilterChange n s).pending = s.pending ∧ (∀ y, (takeFilterChange n s).link y = s.link y) ∧
    (∀ y, (takeFilterChange n s).monitor y = s.monitor y) := by
  unfold takeFilterChange
  try dsimp only
  repeat' split
  all_goals simp

/-- Line settings change the line unit, and what a HALT assertion does (R186, R180). -/
@[simp] theorem applyLineSettings_frame (n : LineId) (w : LineSettings) (pins : PinIn) (s : State) :
    (applyLineSettings n w pins s).links = s.links ∧ (applyLineSettings n w pins s).executor = s.executor ∧
    (applyLineSettings n w pins s).timebase = s.timebase ∧ (applyLineSettings n w pins s).timeScale = s.timeScale ∧
    (applyLineSettings n w pins s).rules = s.rules ∧ (applyLineSettings n w pins s).stack = s.stack ∧
    (applyLineSettings n w pins s).keying = s.keying ∧ (applyLineSettings n w pins s).freeDraws = s.freeDraws ∧
    (applyLineSettings n w pins s).pending = s.pending ∧ (∀ y, (applyLineSettings n w pins s).link y = s.link y) ∧
    (∀ y, (applyLineSettings n w pins s).monitor y = s.monitor y) := by
  unfold applyLineSettings
  try dsimp only
  repeat' split
  all_goals simp

/-- A muted error changes the link and its counter alone. -/
@[simp] theorem muteWith_frame (l : Link) (k : ErrKind) (s : State) :
    (muteWith l k s).executor = s.executor ∧ (muteWith l k s).timebase = s.timebase ∧
    (muteWith l k s).timeScale = s.timeScale ∧ (muteWith l k s).rules = s.rules ∧
    (muteWith l k s).assembler = s.assembler ∧ (muteWith l k s).stack = s.stack ∧
    (muteWith l k s).keying = s.keying ∧ (muteWith l k s).carrier = s.carrier ∧
    (muteWith l k s).lineUnit = s.lineUnit ∧ (muteWith l k s).freeDraws = s.freeDraws ∧
    (muteWith l k s).pending = s.pending ∧ (∀ y, (muteWith l k s).monitor y = s.monitor y) ∧
    (∀ y, (muteWith l k s).line y = s.line y) := by
  simp [muteWith]

/-- The filters change the link and its counter alone (R7). -/
@[simp] theorem filterFrame_frame (l : Link) (h : Header) (c : Byte) (s : State) :
    (filterFrame l h c s).executor = s.executor ∧ (filterFrame l h c s).timebase = s.timebase ∧
    (filterFrame l h c s).timeScale = s.timeScale ∧ (filterFrame l h c s).rules = s.rules ∧
    (filterFrame l h c s).assembler = s.assembler ∧ (filterFrame l h c s).stack = s.stack ∧
    (filterFrame l h c s).keying = s.keying ∧ (filterFrame l h c s).carrier = s.carrier ∧
    (filterFrame l h c s).lineUnit = s.lineUnit ∧ (filterFrame l h c s).freeDraws = s.freeDraws ∧
    (filterFrame l h c s).pending = s.pending ∧ (∀ y, (filterFrame l h c s).monitor y = s.monitor y) ∧
    (∀ y, (filterFrame l h c s).line y = s.line y) := by
  unfold filterFrame
  try dsimp only
  repeat' split
  all_goals simp

/-- The filters change the link and its counter alone (R7). -/
@[simp] theorem filterAddress_frame (l : Link) (h : Header) (b : Bool) (c : Byte) (s : State) :
    (filterAddress l h b c s).executor = s.executor ∧ (filterAddress l h b c s).timebase = s.timebase ∧
    (filterAddress l h b c s).timeScale = s.timeScale ∧ (filterAddress l h b c s).rules = s.rules ∧
    (filterAddress l h b c s).assembler = s.assembler ∧ (filterAddress l h b c s).stack = s.stack ∧
    (filterAddress l h b c s).keying = s.keying ∧ (filterAddress l h b c s).carrier = s.carrier ∧
    (filterAddress l h b c s).lineUnit = s.lineUnit ∧ (filterAddress l h b c s).freeDraws = s.freeDraws ∧
    (filterAddress l h b c s).pending = s.pending ∧ (∀ y, (filterAddress l h b c s).monitor y = s.monitor y) ∧
    (∀ y, (filterAddress l h b c s).line y = s.line y) := by
  unfold filterAddress
  try dsimp only
  repeat' split
  all_goals simp

/-- The header check changes the link and its counter alone (R6). -/
@[simp] theorem checkHeader_frame (l : Link) (h : Header) (c : Byte) (s : State) :
    (checkHeader l h c s).executor = s.executor ∧ (checkHeader l h c s).timebase = s.timebase ∧
    (checkHeader l h c s).timeScale = s.timeScale ∧ (checkHeader l h c s).rules = s.rules ∧
    (checkHeader l h c s).assembler = s.assembler ∧ (checkHeader l h c s).stack = s.stack ∧
    (checkHeader l h c s).keying = s.keying ∧ (checkHeader l h c s).carrier = s.carrier ∧
    (checkHeader l h c s).lineUnit = s.lineUnit ∧ (checkHeader l h c s).freeDraws = s.freeDraws ∧
    (checkHeader l h c s).pending = s.pending ∧ (∀ y, (checkHeader l h c s).monitor y = s.monitor y) ∧
    (∀ y, (checkHeader l h c s).line y = s.line y) := by
  unfold checkHeader
  try dsimp only
  repeat' split
  all_goals simp

/-- A stored byte changes the link and its counter alone (R8). -/
@[simp] theorem storePayload_frame (l : Link) (h : Header) (c : Byte) (got : List Byte) (s : State) :
    (storePayload l h c got s).executor = s.executor ∧ (storePayload l h c got s).timebase = s.timebase ∧
    (storePayload l h c got s).timeScale = s.timeScale ∧ (storePayload l h c got s).rules = s.rules ∧
    (storePayload l h c got s).assembler = s.assembler ∧ (storePayload l h c got s).stack = s.stack ∧
    (storePayload l h c got s).keying = s.keying ∧ (storePayload l h c got s).carrier = s.carrier ∧
    (storePayload l h c got s).lineUnit = s.lineUnit ∧ (storePayload l h c got s).freeDraws = s.freeDraws ∧
    (storePayload l h c got s).pending = s.pending ∧ (∀ y, (storePayload l h c got s).monitor y = s.monitor y) ∧
    (∀ y, (storePayload l h c got s).line y = s.line y) := by
  unfold storePayload
  try dsimp only
  repeat' split
  all_goals simp

/-- A byte changes the link and its counter alone (R4). -/
@[simp] theorem receiveByte_frame (l : Link) (b : Byte) (s : State) :
    (receiveByte l b s).executor = s.executor ∧ (receiveByte l b s).timebase = s.timebase ∧
    (receiveByte l b s).timeScale = s.timeScale ∧ (receiveByte l b s).rules = s.rules ∧
    (receiveByte l b s).assembler = s.assembler ∧ (receiveByte l b s).stack = s.stack ∧
    (receiveByte l b s).keying = s.keying ∧ (receiveByte l b s).carrier = s.carrier ∧
    (receiveByte l b s).lineUnit = s.lineUnit ∧ (receiveByte l b s).freeDraws = s.freeDraws ∧
    (receiveByte l b s).pending = s.pending ∧ (∀ y, (receiveByte l b s).monitor y = s.monitor y) ∧
    (∀ y, (receiveByte l b s).line y = s.line y) := by
  unfold receiveByte
  try dsimp only
  repeat' split
  all_goals simp

/-- A faulty character changes the link and its counter alone (R4). -/
@[simp] theorem receiveFault_frame (l : Link) (k : ErrKind) (s : State) :
    (receiveFault l k s).executor = s.executor ∧ (receiveFault l k s).timebase = s.timebase ∧
    (receiveFault l k s).timeScale = s.timeScale ∧ (receiveFault l k s).rules = s.rules ∧
    (receiveFault l k s).assembler = s.assembler ∧ (receiveFault l k s).stack = s.stack ∧
    (receiveFault l k s).keying = s.keying ∧ (receiveFault l k s).carrier = s.carrier ∧
    (receiveFault l k s).lineUnit = s.lineUnit ∧ (receiveFault l k s).freeDraws = s.freeDraws ∧
    (receiveFault l k s).pending = s.pending ∧ (∀ y, (receiveFault l k s).monitor y = s.monitor y) ∧
    (∀ y, (receiveFault l k s).line y = s.line y) := by
  unfold receiveFault
  try dsimp only
  repeat' split
  all_goals simp

/-- An epoch frame changes the link and its counter alone (R11). -/
@[simp] theorem takeEpoch_frame (l : Link) (f : EpochFrame) (s : State) :
    (takeEpoch l f s).executor = s.executor ∧ (takeEpoch l f s).timebase = s.timebase ∧
    (takeEpoch l f s).timeScale = s.timeScale ∧ (takeEpoch l f s).rules = s.rules ∧
    (takeEpoch l f s).assembler = s.assembler ∧ (takeEpoch l f s).stack = s.stack ∧
    (takeEpoch l f s).keying = s.keying ∧ (takeEpoch l f s).carrier = s.carrier ∧
    (takeEpoch l f s).lineUnit = s.lineUnit ∧ (takeEpoch l f s).freeDraws = s.freeDraws ∧
    (takeEpoch l f s).pending = s.pending ∧ (∀ y, (takeEpoch l f s).monitor y = s.monitor y) ∧
    (∀ y, (takeEpoch l f s).line y = s.line y) := by
  unfold takeEpoch
  try dsimp only
  repeat' split
  all_goals simp

/-- A request frame changes the link and its counter alone (R12). -/
@[simp] theorem takeRequestFrame_frame (l : Link) (f : ReqFrame) (s : State) :
    (takeRequestFrame l f s).executor = s.executor ∧ (takeRequestFrame l f s).timebase = s.timebase ∧
    (takeRequestFrame l f s).timeScale = s.timeScale ∧ (takeRequestFrame l f s).rules = s.rules ∧
    (takeRequestFrame l f s).assembler = s.assembler ∧ (takeRequestFrame l f s).stack = s.stack ∧
    (takeRequestFrame l f s).keying = s.keying ∧ (takeRequestFrame l f s).carrier = s.carrier ∧
    (takeRequestFrame l f s).lineUnit = s.lineUnit ∧ (takeRequestFrame l f s).freeDraws = s.freeDraws ∧
    (takeRequestFrame l f s).pending = s.pending ∧ (∀ y, (takeRequestFrame l f s).monitor y = s.monitor y) ∧
    (∀ y, (takeRequestFrame l f s).line y = s.line y) := by
  unfold takeRequestFrame
  try dsimp only
  repeat' split
  all_goals simp

/-- A frame changes the link and its counter alone (R10). -/
@[simp] theorem takeFrame_frame (l : Link) (h : Header) (p : List Byte) (s : State) :
    (takeFrame l h p s).executor = s.executor ∧ (takeFrame l h p s).timebase = s.timebase ∧
    (takeFrame l h p s).timeScale = s.timeScale ∧ (takeFrame l h p s).rules = s.rules ∧
    (takeFrame l h p s).assembler = s.assembler ∧ (takeFrame l h p s).stack = s.stack ∧
    (takeFrame l h p s).keying = s.keying ∧ (takeFrame l h p s).carrier = s.carrier ∧
    (takeFrame l h p s).lineUnit = s.lineUnit ∧ (takeFrame l h p s).freeDraws = s.freeDraws ∧
    (takeFrame l h p s).pending = s.pending ∧ (∀ y, (takeFrame l h p s).monitor y = s.monitor y) ∧
    (∀ y, (takeFrame l h p s).line y = s.line y) := by
  unfold takeFrame
  try dsimp only
  repeat' split
  all_goals simp

/-- Idle changes the link and its counter alone (R10). -/
@[simp] theorem receiveIdle_frame (l : Link) (s : State) :
    (receiveIdle l s).executor = s.executor ∧ (receiveIdle l s).timebase = s.timebase ∧
    (receiveIdle l s).timeScale = s.timeScale ∧ (receiveIdle l s).rules = s.rules ∧
    (receiveIdle l s).assembler = s.assembler ∧ (receiveIdle l s).stack = s.stack ∧
    (receiveIdle l s).keying = s.keying ∧ (receiveIdle l s).carrier = s.carrier ∧
    (receiveIdle l s).lineUnit = s.lineUnit ∧ (receiveIdle l s).freeDraws = s.freeDraws ∧
    (receiveIdle l s).pending = s.pending ∧ (∀ y, (receiveIdle l s).monitor y = s.monitor y) ∧
    (∀ y, (receiveIdle l s).line y = s.line y) := by
  unfold receiveIdle
  try dsimp only
  repeat' split
  all_goals simp

/-- The end of an inbound character changes its link alone (R20). -/
@[simp] theorem endCharacter_frame (l : Link) (s : State) :
    (endCharacter l s).executor = s.executor ∧ (endCharacter l s).timebase = s.timebase ∧
    (endCharacter l s).timeScale = s.timeScale ∧ (endCharacter l s).rules = s.rules ∧
    (endCharacter l s).assembler = s.assembler ∧ (endCharacter l s).stack = s.stack ∧
    (endCharacter l s).keying = s.keying ∧ (endCharacter l s).carrier = s.carrier ∧
    (endCharacter l s).lineUnit = s.lineUnit ∧ (endCharacter l s).status = s.status ∧
    (endCharacter l s).freeDraws = s.freeDraws ∧ (endCharacter l s).pending = s.pending ∧
    (∀ y, (endCharacter l s).monitor y = s.monitor y) ∧ (∀ y, (endCharacter l s).line y = s.line y) := by
  simp [endCharacter]

/-- The end of a reply changes its link alone (R18). -/
@[simp] theorem endReply_frame (l : Link) (s : State) :
    (endReply l s).executor = s.executor ∧ (endReply l s).timebase = s.timebase ∧
    (endReply l s).timeScale = s.timeScale ∧ (endReply l s).rules = s.rules ∧
    (endReply l s).assembler = s.assembler ∧ (endReply l s).stack = s.stack ∧ (endReply l s).keying = s.keying ∧
    (endReply l s).carrier = s.carrier ∧ (endReply l s).lineUnit = s.lineUnit ∧ (endReply l s).status = s.status ∧
    (endReply l s).freeDraws = s.freeDraws ∧ (endReply l s).pending = s.pending ∧
    (∀ y, (endReply l s).monitor y = s.monitor y) ∧ (∀ y, (endReply l s).line y = s.line y) := by
  unfold endReply
  try dsimp only
  repeat' split
  all_goals simp

/-! ### The keying step -/

/-- A routed pulse leaves the executor as it is (R184). -/
@[simp] theorem takeL6Pulse_frame (s : State) :
    (takeL6Pulse s).executor = s.executor ∧ (takeL6Pulse s).freeDraws = s.freeDraws ∧
    (takeL6Pulse s).pending = s.pending := by
  unfold takeL6Pulse; split <;> simp

/-- Filter changes change the line unit, and what a HALT assertion does (R178). -/
@[simp] theorem takeFilterChanges_frame (s : State) :
    (takeFilterChanges s).links = s.links ∧ (takeFilterChanges s).executor = s.executor ∧
    (takeFilterChanges s).timebase = s.timebase ∧ (takeFilterChanges s).timeScale = s.timeScale ∧
    (takeFilterChanges s).rules = s.rules ∧ (takeFilterChanges s).stack = s.stack ∧
    (takeFilterChanges s).keying = s.keying ∧ (takeFilterChanges s).freeDraws = s.freeDraws ∧
    (takeFilterChanges s).pending = s.pending ∧ (∀ y, (takeFilterChanges s).link y = s.link y) ∧
    (∀ y, (takeFilterChanges s).monitor y = s.monitor y) := by
  simp [takeFilterChanges, allLines]

/-- That the boundary is formed is the timebase's alone (R42). -/
@[simp] theorem sealStep_frame (s : State) :
    (sealStep s).links = s.links ∧ (sealStep s).executor = s.executor ∧ (sealStep s).timeScale = s.timeScale ∧
    (sealStep s).rules = s.rules ∧ (sealStep s).assembler = s.assembler ∧ (sealStep s).stack = s.stack ∧
    (sealStep s).keying = s.keying ∧ (sealStep s).carrier = s.carrier ∧ (sealStep s).lineUnit = s.lineUnit ∧
    (sealStep s).status = s.status ∧ (sealStep s).freeDraws = s.freeDraws ∧ (sealStep s).pending = s.pending ∧
    (∀ y, (sealStep s).link y = s.link y) ∧ (∀ y, (sealStep s).line y = s.line y) := by
  simp [sealStep]

/-- The wrap and its pulses leave the executor as it is (R42). -/
@[simp] theorem formWrap_frame (s : State) :
    (formWrap s).executor = s.executor ∧ (formWrap s).freeDraws = s.freeDraws ∧
    (formWrap s).pending = s.pending := by
  unfold formWrap
  try dsimp only
  repeat' split
  all_goals simp

/-- An edge on a pulse input leaves the executor as it is (R42). -/
@[simp] theorem takeEdge_frame (i : PulseInput) (s : State) :
    (takeEdge i s).executor = s.executor ∧ (takeEdge i s).freeDraws = s.freeDraws ∧
    (takeEdge i s).pending = s.pending := by
  unfold takeEdge
  try dsimp only
  repeat' split
  all_goals simp

/-- The end of a step leaves the executor as it is. -/
@[simp] theorem closeStep_frame (s : State) :
    (closeStep s).executor = s.executor ∧ (closeStep s).freeDraws = s.freeDraws ∧
    (closeStep s).pending = s.pending := by
  unfold closeStep; dsimp only; split <;> simp

/-- A keying step of carrier control (R165). -/
@[simp] theorem carrierStep_frame (s : State) :
    (carrierStep s).links = s.links ∧ (carrierStep s).executor = s.executor ∧ (carrierStep s).timebase = s.timebase ∧
    (carrierStep s).timeScale = s.timeScale ∧ (carrierStep s).rules = s.rules ∧
    (carrierStep s).assembler = s.assembler ∧ (carrierStep s).stack = s.stack ∧
    (carrierStep s).lineUnit = s.lineUnit ∧ (carrierStep s).status = s.status ∧
    (carrierStep s).freeDraws = s.freeDraws ∧ (carrierStep s).pending = s.pending ∧
    (∀ y, (carrierStep s).link y = s.link y) ∧ (∀ y, (carrierStep s).monitor y = s.monitor y) ∧
    (∀ y, (carrierStep s).line y = s.line y) := by
  simp [carrierStep]

/-- The next sample changes the keying generator alone (R151). -/
@[simp] theorem keyingAdvance_frame (s : State) :
    (keyingAdvance s).links = s.links ∧ (keyingAdvance s).executor = s.executor ∧
    (keyingAdvance s).timebase = s.timebase ∧ (keyingAdvance s).timeScale = s.timeScale ∧
    (keyingAdvance s).rules = s.rules ∧ (keyingAdvance s).assembler = s.assembler ∧
    (keyingAdvance s).stack = s.stack ∧ (keyingAdvance s).carrier = s.carrier ∧
    (keyingAdvance s).lineUnit = s.lineUnit ∧ (keyingAdvance s).status = s.status ∧
    (keyingAdvance s).freeDraws = s.freeDraws ∧ (keyingAdvance s).pending = s.pending ∧
    (∀ y, (keyingAdvance s).link y = s.link y) ∧ (∀ y, (keyingAdvance s).monitor y = s.monitor y) ∧
    (∀ y, (keyingAdvance s).line y = s.line y) := by
  unfold keyingAdvance
  try dsimp only
  repeat' split
  all_goals simp

/-- A keying step leaves every other block as it is (R40). -/
@[simp] theorem openStep_frame (pins : PinIn) (s : State) :
    (openStep pins s).links = s.links ∧ (openStep pins s).executor = s.executor ∧
    (openStep pins s).timeScale = s.timeScale ∧ (openStep pins s).rules = s.rules ∧
    (openStep pins s).assembler = s.assembler ∧ (openStep pins s).stack = s.stack ∧
    (openStep pins s).status = s.status ∧ (openStep pins s).freeDraws = s.freeDraws ∧
    (openStep pins s).pending = s.pending ∧ (∀ y, (openStep pins s).link y = s.link y) := by
  simp [openStep]

/-- The soft restart leaves the waiting commands alone. -/
@[simp] theorem softRestartEffect_frame (src : Link) (wire : WireIn) (s : State) :
    (softRestartEffect src wire s).freeDraws = s.freeDraws ∧ (softRestartEffect src wire s).pending = s.pending := by
  exact ⟨rfl, rfl⟩

end Sys2Proof.Machine
end

