-- ==== Sys2Proof/Laws/Ops.lean ====
section
/-! SUPPORT. What the shared operations of Ops, Flags, Lists, Maps and Overrides do, one lemma each; later proofs cite these
and do not unfold the operations. -/

namespace Sys2Proof.Machine

/-! ### Counters and clamps (R30, R188) -/

theorem countUp_eq (n : Nat) : countUp n = min 65535 (n + 1) := rfl

theorem countUp_le (n : Nat) : countUp n ≤ 65535 := Nat.min_le_left _ _

theorem clamp_eq (lo hi v : Nat) : clamp lo hi v = max lo (min hi v) := rfl

theorem clamp_bounds {lo hi : Nat} (v : Nat) (h : lo ≤ hi) : lo ≤ clamp lo hi v ∧ clamp lo hi v ≤ hi := by
  unfold clamp; omega

/-- A value is clamped exactly when it lies outside its range. -/
theorem clamp_ne_iff {lo hi : Nat} (v : Nat) (h : lo ≤ hi) : clamp lo hi v ≠ v ↔ v < lo ∨ hi < v := by
  unfold clamp; omega

/-! ### Errors and the return transmitter (R13 to R19) -/

@[simp] theorem recordError_link_same (l : Link) (k : ErrKind) (s : State) :
    (recordError l k s).link l = (s.link l).recordError k := by simp [recordError]

@[simp] theorem recordError_link_other (l : Link) (k : ErrKind) (s : State) :
    (recordError l k s).link l.other = s.link l.other := by simp [recordError]

theorem recordError_status (l : Link) (k : ErrKind) (s : State) :
    (recordError l k s).status =
      { s.status with
        framesDiscarded :=
          if k.discards then s.status.framesDiscarded.set l (countUp (s.status.framesDiscarded.get l))
          else s.status.framesDiscarded } := by
  unfold recordError; split <;> simp [*]

@[simp] theorem setRx_link_same (l : Link) (rx : RxState) (s : State) :
    (setRx l rx s).link l = { s.link l with rx := rx } := by simp [setRx]

@[simp] theorem setRx_link_other (l : Link) (rx : RxState) (s : State) : (setRx l rx s).link l.other = s.link l.other := by
  simp [setRx]

@[simp] theorem setTx_link_same (l : Link) (tx : Tx) (s : State) :
    (setTx l tx s).link l = { s.link l with tx := tx } := by simp [setTx]

@[simp] theorem setTx_link_other (l : Link) (tx : Tx) (s : State) : (setTx l tx s).link l.other = s.link l.other := by
  simp [setTx]

@[simp] theorem sendPoint_link_same (l : Link) (r : Reply) (s : State) :
    (sendPoint l r s).link l =
      { s.link l with
        tx := beginSending (s.link l).settings.parity (replyFrame r (s.link l).errors), errors := 0,
        quarantined := (s.link l).quarantined && !r.ofStatus } := by simp [sendPoint]

@[simp] theorem sendPoint_link_other (l : Link) (r : Reply) (s : State) :
    (sendPoint l r s).link l.other = s.link l.other := by simp [sendPoint]

/-- A reply taken waits in LEAD or passes its send point, as R18 says which. -/
theorem offerReply_cases (l : Link) (r : Reply) (s : State) :
    ((s.link l).tx = .idle ∧ replyDriveEnabled l s = true ∧ (s.link l).settings.lead ≠ 0 ∧
      offerReply l r s = setTx l (.lead r) s) ∨
    (¬((s.link l).tx = .idle ∧ replyDriveEnabled l s = true ∧ (s.link l).settings.lead ≠ 0) ∧
      offerReply l r s = sendPoint l r s) := by
  unfold offerReply
  split
  · next h => exact .inl ⟨h.1, h.2.1, h.2.2, rfl⟩
  · next h => exact .inr ⟨h, rfl⟩

@[simp] theorem offerReply_link_other (l : Link) (r : Reply) (s : State) :
    (offerReply l r s).link l.other = s.link l.other := by
  rcases offerReply_cases l r s with ⟨-, -, -, h⟩ | ⟨-, h⟩ <;> simp [h]

/-! ### Characters on the wires (R3, R20, R21) -/

theorem charBits_length (p : Parity) (b : Byte) : (charBits p b).length = if p = .none then 10 else 11 := by
  cases p <;> rfl

/-- Knowing how many characters have begun changes none of those that leave the wire under the setting as it stands (R3). -/
theorem withBegun_returnChars (ls : LinkState) (n : Nat) :
    ({ ls with tx := ls.tx.withBegun ls.settings.parity n } : LinkState).returnChars = ls.returnChars := by
  unfold LinkState.returnChars Tx.withBegun
  rcases ls.tx with _ | _ | ⟨frame, begun⟩ | _ | _ <;> try rfl
  dsimp only
  rw [List.append_assoc, ← List.map_append]
  congr 2
  rcases le_total n begun.length with h | h
  · have h0 : (frame.take n).drop begun.length = [] :=
      List.drop_eq_nil_of_le (le_trans (List.length_take_le _ _) h)
    simp [h0]
  · rw [List.drop_take, List.length_append, List.length_map, List.length_take, List.length_drop]
    rcases le_total (n - begun.length) (frame.length - begun.length) with h1 | h1
    · rw [min_eq_left h1, ← List.drop_drop, List.take_append_drop]
    · rw [min_eq_right h1, List.take_of_length_le (by simpa using h1), List.drop_eq_nil_of_le (i := begun.length + _) (by omega),
        List.append_nil]

/-- A transmitter whose reply is dropped is IDLE, or finishes the character in progress of what it was sending (R21, R23). -/
theorem Tx.dropped_cases (p : Parity) (n : Nat) (tx : Tx) :
    tx.dropped p n = .idle ∨ (∃ c, tx = .finishing c ∧ tx.dropped p n = .finishing c) ∨
      ∃ frame begun, tx = .sending frame begun ∧ tx.dropped p n = .finishing (charInProgress p n frame begun) := by
  cases tx
  · exact .inl rfl
  · exact .inl rfl
  · exact .inr (.inr ⟨_, _, rfl, rfl⟩)
  · exact .inr (.inl ⟨_, rfl, rfl⟩)
  · exact .inl rfl

@[simp] theorem endCharacter_link_same (l : Link) (s : State) :
    (endCharacter l s).link l = { s.link l with oldParity := none, skipping := false } := by simp [endCharacter]

@[simp] theorem endCharacter_link_other (l : Link) (s : State) : (endCharacter l s).link l.other = s.link l.other := by
  simp [endCharacter]

/-- With no character under way at a change of parity or an enabling, the end of a character changes nothing (R20, R22). -/
theorem endCharacter_of_none {l : Link} {s : State} (hp : (s.link l).oldParity = none) (hs : (s.link l).skipping = false) :
    endCharacter l s = s := by
  have : ({ s.link l with oldParity := none, skipping := false } : LinkState) = s.link l := by rw [← hp, ← hs]
  simp [endCharacter, this]

/-! ### The take (R26) -/

@[simp] theorem popTaken_link_same (l : Link) (s : State) :
    (popTaken l s).link l = { s.link l with queue := (s.link l).queue.drop 1 } := by simp [popTaken]

@[simp] theorem popTaken_link_other (l : Link) (s : State) : (popTaken l s).link l.other = s.link l.other := by
  simp [popTaken]

theorem popTaken_link (l k : Link) (s : State) :
    (popTaken l s).link k = { s.link k with queue := if k = l then (s.link k).queue.drop 1 else (s.link k).queue } := by
  rcases Link.eq_or_eq_other l k with rfl | rfl <;> simp

@[simp] theorem popTaken_settings (l k : Link) (s : State) :
    ((popTaken l s).link k).settings = (s.link k).settings ∧ ((popTaken l s).link k).tx = (s.link k).tx ∧
      ((popTaken l s).link k).enabled = (s.link k).enabled ∧ ((popTaken l s).link k).errors = (s.link k).errors ∧
      ((popTaken l s).link k).quarantined = (s.link k).quarantined := by simp [popTaken_link]

@[simp] theorem popTaken_executor (l : Link) (s : State) :
    (popTaken l s).executor = { s.executor with lastServed := l } := rfl

@[simp] theorem permitted_popTaken (l : Link) (s : State) (src : Link) (c : PermClass) :
    permitted (popTaken l s) src c = permitted s src c := rfl

/-! ### Conditions that the frame decides -/

theorem profileInForce_congr {s t : State} (h : t.assembler = s.assembler) : profileInForce t = profileInForce s := by
  simp [profileInForce, h]

theorem fullInForce_congr {s t : State} (h : t.assembler = s.assembler) (hk : t.keying = s.keying) :
    fullInForce t = fullInForce s := by simp [fullInForce, profileInForce_congr h, hk]

@[simp] theorem fullInForce_withCarrier (s : State) (x : Carrier) : fullInForce (s.withCarrier x) = fullInForce s := rfl

@[simp] theorem fullInForce_withStatus (s : State) (x : StatusUnit) : fullInForce (s.withStatus x) = fullInForce s := rfl

theorem limited_congr {s t : State} (h : t.timebase = s.timebase) : limited t = limited s := by
  simp [limited, inHoldover, timeValid, h]

theorem warned_congr {s t : State} (h : t.timebase = s.timebase) : warned t = warned s := by
  simp [warned, inHoldover, timeValid, h]

theorem holder_congr {s t : State} {n : LineId} (h : (t.line n).enables = (s.line n).enables) : holder t n = holder s n := by
  simp [holder, h]

theorem isOutput_congr {s t : State} {n : LineId} (h : t.line n = s.line n) : isOutput t n = isOutput s n := by
  unfold isOutput
  rw [holder_congr (t := t) (s := s) (by rw [h]), h]

/-- HALT depends on L1 alone (R180). -/
theorem haltAsserted_congr {s t : State} (h : t.line .l1 = s.line .l1) : haltAsserted t = haltAsserted s := by
  have hh : holder t .l1 = holder s .l1 := holder_congr (by rw [h])
  unfold haltAsserted logicalLevel
  rw [isOutput_congr h, hh, h]
  rcases holderCase : holder s .l1 with _ | f
  · rfl
  · cases f <;> rfl

/-- TX_HOLD depends on L0 alone (R180). -/
theorem txHoldAsserted_congr {s t : State} (h : t.line .l0 = s.line .l0) : txHoldAsserted t = txHoldAsserted s := by
  have hh : holder t .l0 = holder s .l0 := holder_congr (by rw [h])
  unfold txHoldAsserted logicalLevel
  rw [isOutput_congr h, hh, h]
  rcases holderCase : holder s .l0 with _ | f
  · rfl
  · cases f <;> rfl

/-! ### The current word, the event flag of holdover -/

/-- A marked word is the current word with its broken flag set; the rest of the assembler stays (R161). -/
theorem markBroken_assembler (s : State) :
    (markBroken s).assembler =
      { s.assembler with current := s.assembler.current.map fun cw => { cw with word := { cw.word with broken := true } } } := by
  unfold markBroken
  split
  · next h =>
    rw [h, Option.map_none, ← h]
  · next cw h =>
    split
    · next hb =>
      have hcw : ({ cw with word := { cw.word with broken := true } } : CurrentWord) = cw := by rw [← hb]
      rw [h, Option.map_some, hcw, ← h]
    · simp [h]

/-- BROKEN_MINUTES counts the passage from clear to set (R161). -/
theorem markBroken_status (s : State) :
    (markBroken s).status =
      if s.assembler.current.any (!·.word.broken) then
        { s.status with brokenMinutes := countUp s.status.brokenMinutes }
      else s.status := by
  unfold markBroken
  split
  · next h => simp [h]
  · next cw h => split <;> simp [*]

@[simp] theorem profileInForce_markBroken (s : State) : profileInForce (markBroken s) = profileInForce s := by
  simp only [profileInForce, markBroken_assembler]
  cases s.assembler.current <;> rfl

@[simp] theorem fullInForce_markBroken (s : State) : fullInForce (markBroken s) = fullInForce s := by
  simp [fullInForce]

theorem noteLimited_status (b s : State) :
    (noteLimited b s).status =
      { s.status with holdoverLimited := s.status.holdoverLimited || (!limited b && limited s) } := by
  unfold noteLimited
  split
  · next h => simp [h]
  · next h =>
    rw [Bool.not_eq_true] at h
    rw [h, Bool.or_false]

/-! ### Lists (R79 to R85) -/

/-- In a list in order that lists no entry of its day, a leap entry goes between the earlier and the later days. -/
theorem insertLeap_eq (e : LeapEntry) (leaps : List LeapEntry) (ho : leaps.Pairwise (·.day < ·.day))
    (hn : ∀ x ∈ leaps, x.day ≠ e.day) :
    insertLeap e leaps = leaps.filter (·.day < e.day) ++ e :: leaps.filter (e.day < ·.day) := by
  induction leaps with
  | nil => rfl
  | cons x rest ih =>
    rw [List.pairwise_cons] at ho
    unfold insertLeap
    split
    · next hlt =>
      have hr : ∀ y ∈ rest, e.day < y.day := fun y hy => lt_trans hlt (ho.1 y hy)
      rw [List.filter_eq_nil_iff.2 (by simpa using ⟨le_of_lt hlt, fun y hy => le_of_lt (hr y hy)⟩),
        List.filter_eq_self.2 (by simpa using ⟨hlt, hr⟩)]
      rfl
    · next hlt =>
      have hx : x.day < e.day := lt_of_le_of_ne (not_lt.1 hlt) (hn x (by simp))
      rw [ih ho.2 fun y hy => hn y (by simp [hy])]
      simp [hx, hlt]

/-- In a list in order, a transition goes between the earlier and the later minutes, in place of one at its own. -/
theorem putTransition_eq (e : Transition) (ts : List Transition) (ho : ts.Pairwise (·.minute < ·.minute)) :
    putTransition e ts = ts.filter (·.minute < e.minute) ++ e :: ts.filter (e.minute < ·.minute) := by
  induction ts with
  | nil => rfl
  | cons x rest ih =>
    rw [List.pairwise_cons] at ho
    unfold putTransition
    split
    · next hlt =>
      have hr : ∀ y ∈ rest, e.minute < y.minute := fun y hy => lt_trans hlt (ho.1 y hy)
      rw [List.filter_eq_nil_iff.2 (by simpa using ⟨le_of_lt hlt, fun y hy => le_of_lt (hr y hy)⟩),
        List.filter_eq_self.2 (by simpa using ⟨hlt, hr⟩)]
      rfl
    · next hlt =>
      split
      · next heq =>
        have hr : ∀ y ∈ rest, e.minute < y.minute := fun y hy => heq ▸ ho.1 y hy
        have h1 : rest.filter (·.minute < e.minute) = [] :=
          List.filter_eq_nil_iff.2 (by simpa using fun y hy => le_of_lt (hr y hy))
        have h2 : rest.filter (e.minute < ·.minute) = rest := List.filter_eq_self.2 (by simpa using hr)
        simp [← heq, h1, h2]
      · next hne =>
        have hx : x.minute < e.minute := by omega
        rw [ih ho.2]
        simp [hx, hlt]

/-! ### Maps (R103 to R105) -/

@[simp] theorem Assembler.activeBank_setShadow (a : Assembler) (bank : List MapEntry) :
    (a.setShadow bank).activeBank = a.activeBank := by
  unfold Assembler.setShadow Assembler.activeBank; split <;> simp_all

@[simp] theorem Assembler.shadowBank_setShadow (a : Assembler) (bank : List MapEntry) :
    (a.setShadow bank).shadowBank = bank := by
  unfold Assembler.setShadow Assembler.shadowBank; split <;> simp_all

/-- Entries written from a position on stand there, and every other position keeps its entry. -/
theorem writeEntries_get (bank : List MapEntry) (start : Nat) (es : List MapEntry) (h : start + es.length ≤ bank.length)
    (i : Nat) :
    (writeEntries bank start es)[i]? = if start ≤ i ∧ i < start + es.length then es[i - start]? else bank[i]? := by
  unfold writeEntries
  have hs : (bank.take start).length = start := by simp; omega
  rw [List.append_assoc]
  by_cases h1 : i < start
  · rw [List.getElem?_append_left (by omega), List.getElem?_take_of_lt h1, if_neg (by omega)]
  · rw [List.getElem?_append_right (by omega), hs]
    by_cases h2 : i < start + es.length
    · rw [List.getElem?_append_left (by omega), if_pos (by omega)]
    · rw [List.getElem?_append_right (by omega), List.getElem?_drop, if_neg (by omega)]
      congr 1; omega

theorem writeEntries_length (bank : List MapEntry) (start : Nat) (es : List MapEntry)
    (h : start + es.length ≤ bank.length) : (writeEntries bank start es).length = bank.length := by
  simp [writeEntries]; omega

/-- Bytes that hold entries hold one for each four of them. -/
theorem entriesOf_length : ∀ {bs : List Byte} {es : List MapEntry}, entriesOf bs = some es → bs.length = 4 * es.length
  | [], es, h => by simp [entriesOf] at h; simp [← h]
  | [_], _, h => by simp [entriesOf] at h
  | [_, _], _, h => by simp [entriesOf] at h
  | [_, _, _], _, h => by simp [entriesOf] at h
  | b0 :: b1 :: b2 :: b3 :: rest, es, h => by
    unfold entriesOf at h
    split at h
    · next e es' _ hr =>
      have ih := entriesOf_length hr
      simp only [Option.some.injEq] at h
      subst h
      simp [ih]; omega
    · exact absurd h (by simp)

/-! ### The stack (R142, R143) -/

/-- An entry that carries its mark at the expiry step loses one minute and the mark, and one with a single minute leaves. -/
theorem OverrideEntry.expire_marked (e : OverrideEntry) (h : e.mark = true) :
    e.expire = if e.remaining.any (· ≤ 1) then none
      else some { e with remaining := e.remaining.map (· - 1), mark := false } := by
  unfold OverrideEntry.expire
  rcases hr : e.remaining with _ | n
  · simp [h]
  · simp [h]

/-- An entry without its mark is left as it is. -/
theorem OverrideEntry.expire_unmarked (e : OverrideEntry) (h : e.mark = false) : e.expire = some e := by
  simp [OverrideEntry.expire, h]

end Sys2Proof.Machine
end

