-- ==== Sys2Proof/Laws/Boundary.lean ====
section
/-! SUPPORT. What the code assembler, the keying generator, carrier control and the timebase do at a second boundary and at a
pulse, one lemma per operation (R41 to R60, R64 to R70, R113 to R131, R149 to R174). -/

namespace Sys2Proof.Machine

/-! ### Labels and leaps (R64 to R66) -/

@[simp] theorem applyDue_nil (c balance : Int) : applyDue c balance [] = (balance, []) := rfl

theorem applyDue_due {e : LeapEntry} {c balance : Int} (rest : List LeapEntry) (h : e.due c balance = true) :
    applyDue c balance (e :: rest) = applyDue c (balance + e.delta) rest := by simp [applyDue, h]

theorem applyDue_not_due {e : LeapEntry} {c balance : Int} (rest : List LeapEntry) (h : e.due c balance = false) :
    applyDue c balance (e :: rest) = (balance, e :: rest) := by simp [applyDue, h]

theorem LeapEntry.due_iff (e : LeapEntry) (c balance : Int) :
    e.due c balance = true ↔ e.midnight + e.delta ≤ c - balance := by simp [LeapEntry.due, LeapEntry.delta]

/-- What is left after the due entries is a tail of the list (R64, R70). -/
theorem applyDue_suffix (c balance : Int) (leaps : List LeapEntry) : (applyDue c balance leaps).2 <:+ leaps := by
  induction leaps generalizing balance with
  | nil => simp
  | cons e rest ih =>
    cases h : e.due c balance
    · rw [applyDue_not_due rest h]
    · rw [applyDue_due rest h]; exact (ih _).trans (List.suffix_cons e rest)

/-- The head that is left is not due (R64). -/
theorem applyDue_head (c balance : Int) (leaps : List LeapEntry) :
    ∀ e ∈ (applyDue c balance leaps).2.head?, e.due c (applyDue c balance leaps).1 = false := by
  induction leaps generalizing balance with
  | nil => simp
  | cons e rest ih =>
    cases h : e.due c balance
    · rw [applyDue_not_due rest h]; simpa using h
    · rw [applyDue_due rest h]; exact ih _

/-- Whenever a count is given and its second lies in the span, the label carries that count (R65). -/
theorem labelOf_count {uniform : Int} {leaps : List LeapEntry} {count : Nat} {mark : Mark} {lab : Label}
    (h : labelOf uniform leaps count mark = some lab) : lab.count = count ∧ lab.mark = mark := by
  unfold labelOf at h
  repeat' split at h
  all_goals first
    | (simp only [Option.some.injEq] at h; subst h; exact ⟨rfl, rfl⟩)
    | exact absurd h (by simp)

/-! ### The code assembler (R114 to R130) -/

theorem endCurrent_assembler (completed : Bool) (s : State) :
    (endCurrent completed s).assembler = { s.assembler with current := none } := by
  unfold endCurrent
  split
  · next h => rw [← h]
  · split
    · rfl
    · split <;> simp [markBroken_assembler]

theorem discardPending_assembler (s : State) :
    (discardPending s).assembler = { s.assembler with pendingWord := none } := rfl

theorem copySlot_assembler (s : State) :
    (copySlot s).assembler = { s.assembler with slotInForce := s.assembler.slotSetting } := rfl

theorem dropWords_assembler (s : State) :
    (dropWords s).assembler = { s.assembler with current := none, pendingWord := none } := by
  simp [dropWords, endCurrent_assembler, discardPending_assembler]

theorem dropWords_rules (s : State) : (dropWords s).rules = { s.rules with lateRef := none } := by simp [dropWords]

theorem handOver_assembler (s : State) :
    (handOver s).assembler =
      { s.assembler with
        current := s.assembler.pendingWord.map ({ word := ·, lastSlot := 0 }), pendingWord := none } := by
  simp [handOver, endCurrent_assembler]

theorem beginSlot_assembler (n : Nat) (s : State) :
    (beginSlot n s).assembler =
      { s.assembler with current := s.assembler.current.map ({ · with lastSlot := n }) } := rfl

theorem startAssembly_assembler (lab : Label) (s : State) :
    (startAssembly lab s).assembler =
      { s.assembler.swapIfPending with
        assembly := some (takeView lab (s.withAssembler s.assembler.swapIfPending))
        lastViewProfile := some (takeView lab (s.withAssembler s.assembler.swapIfPending)).profile } := rfl

theorem startAssembly_rules (lab : Label) (s : State) :
    (startAssembly lab s).rules = { s.rules with lateRef := some (lab.minuteNumber + 1) } := rfl

theorem startAssembly_stack (lab : Label) (s : State) : (startAssembly lab s).stack = markAll s.stack := rfl

@[simp] theorem swapIfPending_fields (a : Assembler) :
    a.swapIfPending.test = a.test ∧ a.swapIfPending.spare = a.spare ∧ a.swapIfPending.selection = a.selection ∧
    a.swapIfPending.slotSetting = a.slotSetting ∧ a.swapIfPending.slotInForce = a.slotInForce ∧
    a.swapIfPending.assembly = a.assembly ∧ a.swapIfPending.pendingWord = a.pendingWord ∧
    a.swapIfPending.current = a.current ∧ a.swapIfPending.bank0 = a.bank0 ∧ a.swapIfPending.bank1 = a.bank1 ∧
    a.swapIfPending.commitPending = false := by
  unfold Assembler.swapIfPending; split <;> simp_all

/-- The completion with an assembly in progress (R117). -/
theorem completeAssembly_of_some {s : State} {v : View} (h : s.assembler.assembly = some v) :
    completeAssembly s =
      ((s.withRules (applyTransitions v s.rules)).withStack (expireStack s.stack)).withAssembler
        { s.assembler with assembly := none, pendingWord := some (buildWord v) } := by
  simp [completeAssembly, h]

/-- The completion with no assembly in progress (R117). -/
theorem completeAssembly_of_none {s : State} (h : s.assembler.assembly = none) : completeAssembly s = s := by
  simp [completeAssembly, h]

@[simp] theorem applyTransitions_fields (v : View) (r : RuleLists) :
    (applyTransitions v r).leaps = r.leaps ∧ (applyTransitions v r).leapWindow = r.leapWindow ∧
    (applyTransitions v r).changeWindow = r.changeWindow ∧ (applyTransitions v r).lateRef = r.lateRef ∧
    (applyTransitions v r).lastMismatch = r.lastMismatch := by
  unfold applyTransitions; split <;> simp

@[simp] theorem completeAssembly_leaps (s : State) : (completeAssembly s).rules.leaps = s.rules.leaps := by
  unfold completeAssembly; split <;> simp

/-- What the assembler keeps at every boundary: banks, test record, spare byte, selection and slot setting (R126). -/
theorem assemblerBoundary_keeps (label : Option Label) (s : State) :
    (assemblerBoundary label s).assembler.bank0 = s.assembler.bank0 ∧
    (assemblerBoundary label s).assembler.bank1 = s.assembler.bank1 ∧
    (assemblerBoundary label s).assembler.test = s.assembler.test ∧
    (assemblerBoundary label s).assembler.spare = s.assembler.spare ∧
    (assemblerBoundary label s).assembler.selection = s.assembler.selection ∧
    (assemblerBoundary label s).assembler.slotSetting = s.assembler.slotSetting ∧
    (assemblerBoundary label s).rules.leaps = s.rules.leaps ∧
    (assemblerBoundary label s).rules.transitions = s.rules.transitions := by
  unfold assemblerBoundary
  dsimp only
  repeat' split
  all_goals simp [endCurrent_assembler, discardPending_assembler, copySlot_assembler, handOver_assembler,
    beginSlot_assembler, dropWords_assembler, dropWords_rules, startAssembly_assembler, startAssembly_rules]

/-- Without a label no word stays (R130). -/
theorem assemblerBoundary_none (s : State) :
    (assemblerBoundary none s).assembler =
      { s.assembler with current := none, pendingWord := none, slotInForce := s.assembler.slotSetting } := by
  simp [assemblerBoundary, copySlot_assembler, endCurrent_assembler, discardPending_assembler]

/-! ### Keying generator, strobes (R150, R153, R181) -/

theorem formSample_keying (a b : Bool) (s : State) :
    (formSample a b s).keying =
      { s.keying with
        keyOut :=
          { amplitude := s.keying.stepAmp.getD (sampleAmplitude s.keying.latch s.keying.j), slotStart := a,
            minuteStart := b, dip := s.keying.stepAmp.isNone && inDip s.keying.latch s.keying.j } } := rfl

/-- A slot start sets j to 0, samples TX_HOLD and latches from the profile in force (R150, R159). -/
theorem slotStart_keying (label : Option Label) (s : State) :
    (slotStart label s).keying =
      { s.keying with
        j := 0
        holdSuppress := txHoldAsserted s
        latch := latchOf s.keying.profiles (profileInForce s)
          (if s.carrier.code.keys && s.assembler.current.isSome && !txHoldAsserted s then offeredSymbol label s.assembler
            else .nil) } := by
  unfold slotStart
  dsimp only
  split <;> simp

/-- A slot start breaks the current word when it holds back a symbol other than NIL (R161), and changes no other word. -/
theorem slotStart_assembler (label : Option Label) (s : State) :
    (slotStart label s).assembler =
      if txHoldAsserted s && (s.carrier.code.keys && s.assembler.current.isSome) && offeredSymbol label s.assembler != .nil
      then (markBroken s).assembler else s.assembler := by
  unfold slotStart
  dsimp only
  split <;> rfl

theorem startStrobes_strobes (label : Option Label) (s : State) :
    (startStrobes label s).lineUnit =
      { s.lineUnit with
        strobes :=
          { minute := if label.any (·.second == 0) then some s.lineUnit.strobeWidth else s.lineUnit.strobes.minute
            slot := if label.any (·.second == s.lineUnit.strobeSlot) then some s.lineUnit.strobeWidth
              else s.lineUnit.strobes.slot
            second := some s.lineUnit.strobeWidth } } := rfl

/-! ### Carrier control (R163 to R174) -/

/-- An ARMED code starts exactly at a handed-over slot 0 with the carrier STEADY since before the step (R170). -/
theorem carrierBoundary_armed {s : State} (h : s.carrier.code = .armed) (label : Option Label) (handed : Bool) :
    carrierBoundary label handed s =
      if label.any (·.second == 0) = true ∧ handed = true ∧ s.carrier.state = .steady ∧ s.carrier.justSteady = false then
        s.withCarrier { s.carrier with code := .running }
      else s := by
  unfold carrierBoundary
  rw [h]
  cases s.carrier.justSteady <;> simp [and_assoc]

/-- The end of a rise: STEADY, marked for the boundary that may still be made in the same step (R165, R170). -/
theorem completeRising_of_end {s : State} (hs : s.carrier.state = .rising) (he : s.carrier.rampEnd = true) :
    completeRising s = s.withCarrier { s.carrier with state := .steady, rampEnd := false, justSteady := true } := by
  simp [completeRising, hs, he]

/-- In the step in which a rise ends, no boundary starts the code (R170). -/
theorem carrierBoundary_of_justSteady {s : State} (h : s.carrier.code = .armed) (hj : s.carrier.justSteady = true)
    (label : Option Label) (handed : Bool) : carrierBoundary label handed s = s := by
  simp [carrierBoundary_armed h, hj]

/-- A keying step of carrier control moves k, judges the end of the ramp and leaves no rise as just ended (R165). -/
theorem Carrier.tick_eq (c : Carrier) :
    c.tick = { c with k := c.tick.k, rampEnd := c.tick.rampEnd, justSteady := false } := by
  unfold Carrier.tick
  cases c.state <;> rfl

theorem beginRamp_carrier (s : State) :
    (beginRamp s).carrier = { s.carrier with rc := s.carrier.rampSetting, fr := fullInForce s, rampEnd := false } := rfl

theorem fallAtBoundary_carrier (s : State) :
    (fallAtBoundary s).carrier =
      { s.carrier with
        state := .falling, rc := s.carrier.rampSetting, fr := fullInForce s, k := s.carrier.rampSetting - 1,
        offAfter := false, rampEnd := false } := rfl

theorem fallFrom_carrier (k : Nat) (s : State) :
    (fallFrom k s).carrier =
      { s.carrier with state := if k = 0 then .off else .falling, k := k, rampEnd := false } := rfl

/-- The position for an amplitude is the smallest one whose amplitude is not below it, but never past Rc (R173). -/
theorem positionFor_spec {rc fr a : Nat} (hf : 1 ≤ fr) :
    positionFor rc fr a ≤ rc ∧ (positionFor rc fr a < rc → rc * a ≤ fr * positionFor rc fr a) ∧
      ∀ k, k < positionFor rc fr a → fr * k < rc * a := by
  unfold positionFor
  have hd : ∀ q, (rc * a + fr - 1) / fr ≤ q ↔ rc * a + fr - 1 < fr * (q + 1) := fun q => by
    rw [← Nat.lt_succ_iff, Nat.div_lt_iff_lt_mul (by omega), Nat.mul_comm fr]
  refine ⟨Nat.min_le_left _ _, fun h => ?_, fun k hk => ?_⟩
  · have hm : min rc ((rc * a + fr - 1) / fr) = (rc * a + fr - 1) / fr := by omega
    rw [hm]
    have := (hd _).1 le_rfl
    rw [Nat.mul_succ] at this
    omega
  · have hk' : ¬(rc * a + fr - 1) / fr ≤ k := by omega
    rw [hd, Nat.mul_succ] at hk'
    omega

/-- A HALT assertion on a carrier that is up brings the fall from the position of the last amplitude (R173). -/
theorem haltAssertion_carrier (s : State) :
    (haltAssertion s).carrier =
      match s.carrier.state with
      | .steady =>
        let k := positionFor s.carrier.rampSetting (fullInForce s) s.keying.keyOut.amplitude
        { s.carrier with
          state := if k = 0 then .off else .falling, k := k, rc := s.carrier.rampSetting, fr := fullInForce s, code := .off,
          offAfter := false, haltLatch := true, rampEnd := false }
      | .rising =>
        let k := positionFor s.carrier.rc s.carrier.fr s.keying.keyOut.amplitude
        { s.carrier with
          state := if k = 0 then .off else .falling, k := k, code := .off, offAfter := false, haltLatch := true,
          rampEnd := false }
      | .falling => { s.carrier with code := .off, offAfter := false, haltLatch := true }
      | .off => { s.carrier with code := .off, offAfter := false, haltLatch := true } := by
  unfold haltAssertion
  rcases hc : s.carrier.state <;> split <;> simp [hc, fallFrom_carrier, beginRamp_carrier]

theorem haltAssertion_assembler (s : State) :
    (haltAssertion s).assembler = if s.carrier.code = .running then (markBroken s).assembler else s.assembler := by
  unfold haltAssertion
  dsimp only
  split <;> split <;> rfl

/-- A HALT assertion is taken exactly when HALT has become asserted (R180). -/
theorem noteHalt_eq (b s : State) :
    noteHalt b s = if haltAsserted b = false ∧ haltAsserted s = true then haltAssertion s else s := by
  unfold noteHalt; cases haltAsserted b <;> cases haltAsserted s <;> rfl

/-! ### The boundary (R41, R65) -/

theorem timeBoundary_spec (cause : BoundaryCause) (s : State) :
    (timeBoundary cause s).timeScale = (labelBoundary s.timeScale s.rules.leaps (carriedCount cause s.timebase)).1 ∧
    (timeBoundary cause s).rules =
      { s.rules with leaps := (labelBoundary s.timeScale s.rules.leaps (carriedCount cause s.timebase)).2 } ∧
    (timeBoundary cause s).timebase =
      s.timebase.atBoundary (labelBoundary s.timeScale s.rules.leaps (carriedCount cause s.timebase)).1.label :=
  ⟨rfl, rfl, rfl⟩

@[simp] theorem Timebase.atBoundary_fields (tb : Timebase) (label : Option Label) :
    (tb.atBoundary label).m = tb.m ∧ (tb.atBoundary label).wrapDue = false ∧
    (tb.atBoundary label).count = label.map (·.count) ∧ (tb.atBoundary label).settings = tb.settings := by
  cases label <;> simp [Timebase.atBoundary]

/-- A second boundary as timebase, time scale unit, keying generator and strobes show it (R41, R65, R150, R153, R181). -/
theorem secondBoundary_spec (cause : BoundaryCause) (s : State) :
    let unit := (labelBoundary s.timeScale s.rules.leaps (carriedCount cause s.timebase)).1
    let t := secondBoundary cause s
    t.timeScale = unit ∧ t.timebase = s.timebase.atBoundary unit.label ∧
    t.rules.leaps = (labelBoundary s.timeScale s.rules.leaps (carriedCount cause s.timebase)).2 ∧
    t.keying.j = 0 ∧ t.keying.keyOut.slotStart = true ∧ t.keying.keyOut.minuteStart = atSlotZero unit.label ∧
    t.lineUnit = (startStrobes unit.label s).lineUnit := by
  have hb := timeBoundary_spec cause (completeAssembly s)
  simp only [completeAssembly_frame, completeAssembly_leaps] at hb
  obtain ⟨h1, h2, h3⟩ := hb
  have ha := fun l x => (assemblerBoundary_keeps l x).2.2.2.2.2.2.1
  refine ⟨?_, ?_, ?_, ?_, ?_, ?_, ?_⟩
  all_goals simp [secondBoundary, formSample_keying, slotStart_keying, startStrobes_strobes, h1, h2, h3, ha, atSlotZero]

end Sys2Proof.Machine
end

