-- ==== Sys2Proof/Laws/Lines.lean ====
section
/-! SUPPORT. What a filter sample, an edge, a filter change and a WRITE_LINES do to the lines, one lemma per operation (R176 to
R186). -/

namespace Sys2Proof.Machine

/-- The routing of L6 depends on the enables of L6 alone (R184). -/
theorem routedL6_congr {s t : State} (h : (t.line .l6).enables = (s.line .l6).enables) : routedL6 t = routedL6 s := by
  simp [routedL6, holder_congr h]

/-- The logical level of an input is its filtered level, inverted or not (R177). -/
theorem logicalLevel_input {s : State} {n : LineId} (h : isOutput s n = false) :
    logicalLevel s n = ((s.line n).filtered ^^ (s.line n).invert) := by simp [logicalLevel, h]

theorem isOutput_congr_of {s t : State} {n : LineId} (he : (t.line n).enables = (s.line n).enables)
    (hd : (t.line n).dirOut = (s.line n).dirOut) : isOutput t n = isOutput s n := by
  unfold isOutput
  rw [holder_congr he, hd]

/-- An edge sets the edge-event flag when edge select chooses it, on its own line alone (R179). -/
theorem noteEdge_line (n m : LineId) (rising routed : Bool) (s : State) :
    (noteEdge n rising routed s).line m =
      if m = n then { s.line n with edgeFlag := (s.line n).edgeFlag || (s.line n).edge.chooses rising } else s.line m := by
  have key : ∀ t : State, (if n = .l6 ∧ routed = true ∧ rising = true then
      t.withLineUnit { t.lineUnit with l6Pulse := true } else t).line m = t.line m := by
    intro t; split <;> rfl
  unfold noteEdge
  dsimp only
  rw [key]
  cases hc : (s.line n).edge.chooses rising
  · by_cases h : m = n
    · subst h; simp
    · simp [h]
  · simp [State.line_setLine]

/-- A rising edge on a routed L6 waits for the timebase (R184). -/
theorem noteEdge_l6Pulse (n : LineId) (rising routed : Bool) (s : State) :
    (noteEdge n rising routed s).lineUnit.l6Pulse = (s.lineUnit.l6Pulse || (n == .l6 && routed && rising)) := by
  unfold noteEdge
  dsimp only
  cases hc : (s.line n).edge.chooses rising <;> cases n <;> cases routed <;> cases rising <;> simp

/-- Strobes, widths and strap are not touched by an edge. -/
theorem noteEdge_unit (n : LineId) (rising routed : Bool) (s : State) :
    (noteEdge n rising routed s).lineUnit =
      { s.lineUnit with
        lines := (noteEdge n rising routed s).lineUnit.lines, l6Pulse := (noteEdge n rising routed s).lineUnit.l6Pulse } := by
  unfold noteEdge
  dsimp only
  split <;> split <;> rfl

/-- A line that a change does not concern keeps HALT as it is (R180). -/
theorem noteHalt_of_l1 {b s : State} (h : s.line .l1 = b.line .l1) : noteHalt b s = s := by
  rw [noteHalt_eq, haltAsserted_congr h, if_neg (by rintro ⟨h1, h2⟩; rw [h1] at h2; cases h2)]

/-- A filter change that is due on an input moves its level, with its edge; on L1 HALT follows (R178 to R180, R184). -/
theorem takeFilterChange_of_due {n : LineId} {s : State} (hd : (s.line n).filterDue = true) (hi : isOutput s n = false) :
    let s1 := s.setLine n { s.line n with filtered := !(s.line n).filtered, run := 0, filterDue := false }
    takeFilterChange n s = noteHalt s (noteEdge n (!((s.line n).filtered ^^ (s.line n).invert)) (routedL6 s) s1) := by
  intro s1
  have ho : isOutput s1 n = false := by rw [← hi]; exact isOutput_congr_of (by simp [s1]) (by simp [s1])
  have hr : routedL6 s1 = routedL6 s := by
    apply routedL6_congr
    simp only [s1, State.line_setLine]
    split
    · next h => rw [h]
    · rfl
  have hl : logicalLevel s1 n = !((s.line n).filtered ^^ (s.line n).invert) := by
    rw [logicalLevel_input ho]; simp [s1]
  unfold takeFilterChange
  rw [if_pos ⟨hd, hi⟩]
  show noteHalt s (noteEdge n (logicalLevel s1 n) (routedL6 s1) s1) = _
  rw [hl, hr]

/-- Nothing happens when no filter change is due (R178). -/
theorem takeFilterChange_of_not_due {n : LineId} {s : State} (hd : (s.line n).filterDue = false) :
    takeFilterChange n s = s := by simp [takeFilterChange, hd]

/-- One keying step of a line (R178). -/
theorem lineStep_line (pins : PinIn) (s : State) (n : LineId) :
    (lineStep pins s).line n =
      if isOutput s n then s.line n else (s.line n).sample (pinFound pins n (s.line n).pull) := by
  show (PerLine.build (sampledLine s pins)).get n = _
  simp [sampledLine]

/-- WRITE_LINES changes the line it names alone (R186). -/
theorem applyLineSettings_other {n m : LineId} (w : LineSettings) (pins : PinIn) (s : State) (h : m ≠ n) :
    (applyLineSettings n w pins s).line m = s.line m := by
  have key : ∀ b t : State, (noteHalt b t).line m = t.line m := fun b t => by simp
  unfold applyLineSettings
  dsimp only
  rw [key]
  split
  · rw [noteEdge_line, if_neg h, State.line_setLine_ne _ _ _ h, State.line_setLine_ne _ _ _ h]
  · rw [State.line_setLine_ne _ _ _ h, State.line_setLine_ne _ _ _ h]

end Sys2Proof.Machine
end

