-- ==== Sys2Proof/Laws/Pulses.lean ====
section
/-! SUPPORT. What a pulse, the wrap of a keying step and the pulses that wait do, one lemma per operation (R41, R42, R152; logs 5
and 41). -/

namespace Sys2Proof.Machine

/-! ### Which pulses wait (log 41) -/

theorem pulseWaits_iff (s : State) :
    pulseWaits s = true ↔ s.timebase.formed = .atWrap ∨ (s.timebase.formed = .atPulse ∧ s.timebase.active = none) := by
  unfold pulseWaits
  rcases s.timebase.formed <;> simp

/-- While its monitor is DOWN a source has no pulse (R42). -/
theorem takePulse_of_down {x : Link} {s : State} (h : (s.monitor x).state = .down) : takePulse x s = s := by
  simp [takePulse, h]

/-- A pulse that comes too late for its keying step is held for the next one (log 41). -/
theorem takePulse_of_waits {x : Link} {s : State} (hd : (s.monitor x).state ≠ .down) (hw : pulseWaits s = true) :
    takePulse x s = s.setMonitor x { s.monitor x with waiting := true } := by simp [takePulse, hd, hw]

/-- Any other pulse is judged at once (R44). -/
theorem takePulse_of_judged {x : Link} {s : State} (hd : (s.monitor x).state ≠ .down) (hw : pulseWaits s = false) :
    takePulse x s = judgeSecond x s := by simp [takePulse, hd, hw]

theorem takeWaiting_of_none {x : Link} {s : State} (h : (s.monitor x).waiting = false) : takeWaiting x s = s := by
  simp [takeWaiting, h]

theorem takeWaiting_of_waiting {x : Link} {s : State} (h : (s.monitor x).waiting = true) :
    takeWaiting x s = takePulse x (s.setMonitor x { s.monitor x with waiting := false }) := by simp [takeWaiting, h]

/-! ### The wrap and its pulses (R41, R42) -/

theorem takeL6Pulse_of_none {s : State} (h : s.lineUnit.l6Pulse = false) : takeL6Pulse s = s := by simp [takeL6Pulse, h]

theorem takeWrap_of_not_due {s : State} (h : s.timebase.wrapDue = false) : takeWrap s = s := by simp [takeWrap, h]

/-- However the step's pulses fall, after the wrap none is due: its boundary is the wrap's or a pulse's. -/
theorem takeWrap_not_due (s : State) : (takeWrap s).timebase.wrapDue = false := by
  unfold takeWrap
  split
  · exact (secondBoundary_spec .advance s).2.1 ▸ (Timebase.atBoundary_fields _ _).2.1
  · next h => simpa using h

@[simp] theorem sealStep_timebase (s : State) : (sealStep s).timebase = { s.timebase with formed := .atWrap } := rfl

/-- The wrap with its pulses leaves no wrap due and no second boundary to come in its keying step (R42, R152). -/
theorem formWrap_seals (s : State) :
    (formWrap s).timebase.wrapDue = false ∧ (formWrap s).timebase.formed = .atWrap :=
  ⟨takeWrap_not_due _, rfl⟩

/-- With no pulse at hand on L6 the wrap is the boundary alone (R41). -/
theorem formWrap_alone {s : State} (h : s.lineUnit.l6Pulse = false)
    (hr : routedL6 s = true → (s.line .l6).filterDue = false) : formWrap s = sealStep (takeWrap s) := by
  have h0 : (if routedL6 s = true then takeFilterChange .l6 s else s) = s := by
    split
    · next hx => exact takeFilterChange_of_not_due (hr hx)
    · rfl
  rw [formWrap, h0, takeL6Pulse_of_none h]

/-! ### The command PULSE (R42, R184) -/

/-- Outside a wrap, PULSE takes its edges and nothing else. -/
theorem execPulse_no_wrap (i : PulseEdges) {s : State} (h : s.timebase.wrapDue = false) :
    execPulse i s = .next (match i.also with
      | some k => takeEdge k (takeEdge i.input s)
      | none => takeEdge i.input s) := by
  unfold execPulse
  simp only [h, Bool.false_and]
  rfl

/-- At a wrap, a pulse takes the step's boundary with it (R42). -/
theorem execPulse_at_wrap (i : PulseInput) {s : State} (h : s.timebase.wrapDue = true)
    (hp : (pulseSource i s).isSome = true) :
    execPulse { input := i, also := none } s = .next (formWrap (takeEdge i s)) := by
  simp [execPulse, h, hp]

end Sys2Proof.Machine
end

