-- ==== Sys2Proof/Laws/Requests.lean ====
section
/-! SUPPORT. The take of a request, its checks, its reply and the reads, once for all requests (R25 to R35). -/

namespace Sys2Proof.Machine

/-! ### The take (R26, R27) -/

theorem requestOf_src {src : Link} {f : ReqFrame} {rq : Request} (h : requestOf src f = some rq) : rq.src = src := by
  unfold requestOf at h
  split at h
  · simp only [Option.some.injEq] at h; rw [← h]
  · exact absurd h (by simp)

/-- Fewer than three payload bytes hold no request (R27 check 1). -/
theorem requestOf_none_iff (src : Link) (f : ReqFrame) : requestOf src f = none ↔ f.payload.length < 3 := by
  unfold requestOf
  rcases f with ⟨a, _ | ⟨x, _ | ⟨y, _ | ⟨z, rest⟩⟩⟩⟩ <;> simp

theorem Takes.src {name : Byte} {src : Link} {s : State} {rq : Request} (h : Takes name src s rq) : rq.src = src := by
  obtain ⟨f, q, -, -, hr, -⟩ := h
  exact requestOf_src hr

theorem Takes.name {name : Byte} {src : Link} {s : State} {rq : Request} (h : Takes name src s rq) : rq.name = name := by
  obtain ⟨f, q, -, -, -, hn⟩ := h
  exact hn

/-- The executor takes rq from src exactly when the take is not empty. -/
theorem takenRequest_eq_some {name : Byte} {src : Link} {s : State} {rq : Request} :
    takenRequest name src s = some rq ↔ Takes name src s rq := by
  unfold takenRequest nextTake Takes
  rcases hq : (s.link src).queue with _ | ⟨f, q⟩
  · simp
  · by_cases hs : serves s src = true
    · constructor
      · intro h
        simp only [hs, if_true, List.head?_cons, Option.bind_some, Option.filter_eq_some_iff, beq_iff_eq] at h
        exact ⟨f, q, rfl, hs, h.1, h.2⟩
      · rintro ⟨f', q', he, -, hr, hn⟩
        injection he with he1 he2
        subst he1
        simp [hs, hr, hn]
    · simp [hs]

/-- A request that the executor takes next is answered and its reply offered. -/
theorem takeNamed_of_takes {name : Byte} {src : Link} {s : State} {rq : Request} (h : Takes name src s rq)
    (handler : Request → State → Answer) :
    takeNamed name handler src s = finishTake rq (handler rq (popTaken src s)) := by
  simp [takeNamed, takenRequest_eq_some.2 h]

/-- A take by name does nothing, or takes the head request of its link. -/
theorem takeNamed_cases (name : Byte) (handler : Request → State → Answer) (src : Link) (s : State) :
    takeNamed name handler src s = s ∨
      ∃ rq, Takes name src s rq ∧ takeNamed name handler src s = finishTake rq (handler rq (popTaken src s)) := by
  rcases h : takenRequest name src s with _ | rq
  · exact .inl (by simp [takeNamed, h])
  · exact .inr ⟨rq, takenRequest_eq_some.1 h, takeNamed_of_takes (takenRequest_eq_some.1 h) handler⟩

/-- The same for CONTROL, which a row takes only when it describes the request or no row does (log 4). -/
theorem takeControl_cases (row : Request → Bool) (src : Link) (s : State) :
    takeControl row src s = s ∨
      ∃ rq, Takes controlCode src s rq ∧ takeControl row src s = finishTake rq (controlAnswer rq (popTaken src s)) := by
  unfold takeControl
  rcases h : takenRequest controlCode src s with _ | rq
  · exact .inl rfl
  · dsimp only
    split
    · exact .inr ⟨rq, takenRequest_eq_some.1 h, rfl⟩
    · exact .inl rfl

/-- A CONTROL that gives a row's part is taken by the row. -/
theorem takeControl_of_takes {row : Request → Bool} {src : Link} {s : State} {rq : Request}
    (h : Takes controlCode src s rq) (hr : row rq = true) :
    takeControl row src s = finishTake rq (controlAnswer rq (popTaken src s)) := by
  simp [takeControl, takenRequest_eq_some.2 h, hr]

/-- The take of a request that R27 refuses at once does nothing, drops a short frame, or answers UNKNOWN_REQUEST. -/
theorem takeUnknown_cases (src : Link) (s : State) :
    takeUnknown src s = s ∨ takeUnknown src s = popTaken src s ∨
      ∃ rq, rq.src = src ∧ takeUnknown src s = finishTake rq (refuse .unknownRequest (popTaken src s)) := by
  unfold takeUnknown
  split
  · exact .inl rfl
  · next f _ =>
    split
    · exact .inr (.inl rfl)
    · next rq hr =>
      split
      · exact .inl rfl
      · exact .inr (.inr ⟨rq, requestOf_src hr, rfl⟩)

/-! ### The checks that every request meets first (R27, R32) -/

theorem refuse_eq (r : Reason) (s : State) :
    refuse r s = { outcome := .refused r, data := (match r with | .validation n => [byteOf n] | _ => []), state := s } := by
  cases r <;> rfl

@[simp] theorem refuse_state (r : Reason) (s : State) : (refuse r s).state = s := rfl

@[simp] theorem refuse_outcome (r : Reason) (s : State) : (refuse r s).outcome = .refused r := rfl

@[simp] theorem carriedOut_state (clamped : Bool) (s : State) : (carriedOut clamped s).state = s := rfl

@[simp] theorem carriedOut_outcome (clamped : Bool) (s : State) :
    (carriedOut clamped s).outcome = if clamped then .doneClamped else .done := rfl

theorem checked_cases (n : Nat) (c : PermClass) (own : Request → State → Answer) (rq : Request) (s : State) :
    (rq.args.length ≠ n ∧ checked n c own rq s = refuse .length s) ∨
    (rq.args.length = n ∧ permitted s rq.src c = false ∧ checked n c own rq s = refuse .permission s) ∨
    (rq.args.length = n ∧ permitted s rq.src c = true ∧ checked n c own rq s = own rq s) := by
  unfold checked
  by_cases h1 : rq.args.length = n
  · by_cases h2 : permitted s rq.src c = true
    · exact .inr (.inr ⟨h1, h2, by simp [h1, h2]⟩)
    · exact .inr (.inl ⟨h1, by simpa using h2, by simp [h1, h2]⟩)
  · exact .inl ⟨h1, by simp [h1]⟩

theorem checked_eq_own {n : Nat} {c : PermClass} {rq : Request} {s : State} (own : Request → State → Answer)
    (h1 : rq.args.length = n) (h2 : permitted s rq.src c = true) : checked n c own rq s = own rq s := by
  simp [checked, h1, h2]

theorem lengthChecked_eq_own {n : Nat} {rq : Request} {s : State} (own : Request → State → Answer)
    (h1 : rq.args.length = n) : lengthChecked n own rq s = own rq s := by simp [lengthChecked, h1]

/-- The take of a request with fixed arguments and a class whose first checks pass. -/
theorem take_checked {name : Byte} {n : Nat} {c : PermClass} {src : Link} {s : State} {rq : Request}
    (h : Takes name src s rq) (own : Request → State → Answer) (h1 : rq.args.length = n) (h2 : permitted s src c = true) :
    takeNamed name (checked n c own) src s = finishTake rq (own rq (popTaken src s)) := by
  rw [takeNamed_of_takes h, checked_eq_own own h1 (by rw [h.src]; exact h2)]

/-- The take of a request with fixed arguments and no class whose length is right. -/
theorem take_lengthChecked {name : Byte} {n : Nat} {src : Link} {s : State} {rq : Request} (h : Takes name src s rq)
    (own : Request → State → Answer) (h1 : rq.args.length = n) :
    takeNamed name (lengthChecked n own) src s = finishTake rq (own rq (popTaken src s)) := by
  rw [takeNamed_of_takes h, lengthChecked_eq_own own h1]

/-! ### The reply (R28) -/

/-- The reply touches its link's transmitter, error set and quarantine, and nothing else. -/
theorem finishTake_cases (rq : Request) (an : Answer) :
    ∃ ls : LinkState, finishTake rq an = an.state.setLink rq.src ls ∧
      ls = { an.state.link rq.src with errors := ls.errors, quarantined := ls.quarantined, tx := ls.tx } := by
  unfold finishTake
  split
  · unfold offerReply
    split
    · exact ⟨_, rfl, rfl⟩
    · exact ⟨_, rfl, rfl⟩
  · exact ⟨an.state.link rq.src, by simp, rfl⟩

@[simp] theorem finishTake_frame (rq : Request) (an : Answer) :
    (finishTake rq an).executor = an.state.executor ∧ (finishTake rq an).timebase = an.state.timebase ∧
    (finishTake rq an).timeScale = an.state.timeScale ∧ (finishTake rq an).rules = an.state.rules ∧
    (finishTake rq an).assembler = an.state.assembler ∧ (finishTake rq an).stack = an.state.stack ∧
    (finishTake rq an).keying = an.state.keying ∧ (finishTake rq an).carrier = an.state.carrier ∧
    (finishTake rq an).lineUnit = an.state.lineUnit ∧ (finishTake rq an).status = an.state.status ∧
    (finishTake rq an).freeDraws = an.state.freeDraws ∧ (finishTake rq an).pending = an.state.pending ∧
    (∀ y, (finishTake rq an).monitor y = an.state.monitor y) ∧ (∀ y, (finishTake rq an).line y = an.state.line y) ∧
    (finishTake rq an).link rq.src.other = an.state.link rq.src.other := by
  unfold finishTake
  split <;> simp

theorem finishTake_of_no_reply {rq : Request} (an : Answer) (h : rq.wantsReply = false) : finishTake rq an = an.state := by
  simp [finishTake, h]

theorem finishTake_of_reply {rq : Request} (an : Answer) (h : rq.wantsReply = true) :
    finishTake rq an = offerReply rq.src
      { address := (an.state.link rq.src).settings.node, tag := rq.tag, outcome := an.outcome, data := an.data,
        ofStatus := rq.name == readStatusCode } an.state := by
  simp [finishTake, h]

/-! ### Reads (R35) -/

theorem readAnswer_eq (image : List Byte) (o r : Nat) (s : State) (h : o ≤ image.length) :
    readAnswer image o r s =
      if o + r < image.length then
        { outcome := .more, data := be2 (o + r) ++ (image.drop o).take r, state := s }
      else { outcome := .done, data := be2 image.length ++ image.drop o, state := s } := by
  simp [readAnswer, not_lt.2 h]

theorem readAnswer_range (image : List Byte) (o r : Nat) (s : State) (h : image.length < o) :
    readAnswer image o r s = refuse .range s := by simp [readAnswer, h]

/-- A read changes nothing of the part. -/
@[simp] theorem readAnswer_state (image : List Byte) (o r : Nat) (s : State) : (readAnswer image o r s).state = s := by
  unfold readAnswer; repeat' split
  all_goals rfl

/-! ### Numbers in bytes (R194) -/

@[simp] theorem be2_length (n : Nat) : (be2 n).length = 2 := rfl

@[simp] theorem be4_length (n : Nat) : (be4 n).length = 4 := rfl

@[simp] theorem be5_length (n : Nat) : (be5 n).length = 5 := rfl

theorem ofBytes_be2 {n : Nat} (h : n < 65536) : ofBytes (be2 n) = n := by
  simp [ofBytes, be2, byteOf]; omega

theorem Request.num_lt (rq : Request) (i : Nat) : rq.num i < 256 := (rq.arg i).isLt

theorem Request.num2_lt (rq : Request) (i : Nat) : rq.num2 i < 65536 := by
  have := rq.num_lt i; have := rq.num_lt (i + 1); unfold Request.num2; omega

/-! ### The lengths of the images (12.8) -/

@[simp] theorem entryBytes_length (e : MapEntry) : (entryBytes e).length = 4 := rfl

@[simp] theorem leapBytes_length (e : LeapEntry) : (leapBytes e).length = 3 := rfl

@[simp] theorem transitionBytes_length (e : Transition) : (transitionBytes e).length = 6 := rfl

@[simp] theorem stackEntryBytes_length (e : OverrideEntry) : (stackEntryBytes e).length = 5 := by
  rcases e with ⟨v, _, _, _⟩; cases v <;> rfl

@[simp] theorem wordBytes_length (w : Option CodeWord) (n : Nat) : (wordBytes w n).length = 34 := by
  cases w <;> simp [wordBytes, packSymbols]

@[simp] theorem lineBytes_length (s : State) (n : LineId) : (lineBytes s n).length = 6 := rfl

@[simp] theorem labelBytes_length (l : Option Label) : (labelBytes l).length = 11 := by cases l <;> rfl

@[simp] theorem offsetBytes_length (mon : Monitor) : (offsetBytes mon).length = 2 := by
  unfold offsetBytes; split <;> rfl

@[simp] theorem statusRecord_length (s : State) (free : Byte) : (statusRecord s free).length = 64 := by
  simp [statusRecord, counterBytes]

end Sys2Proof.Machine
end

