-- ==== Sys2Proof/Laws/Receiver.lean ====
section
/-! SUPPORT. What the character events and the requests on links do to a character under way, one lemma per operation (R20 to
R22; log 9). -/

namespace Sys2Proof.Machine

/-- A character that began before the link was enabled is not taken: its end is noted, and nothing else (R22). -/
theorem execByteReceived_skipping {l : Link} {s : State} (he : (s.link l).enabled = true)
    (hs : (s.link l).skipping = true) (c : RxChar) : execByteReceived l c s = .next (endCharacter l s) := by
  simp [execByteReceived, he, hs]

/-- The same of a character with a fault (R22). -/
theorem execCharacterFault_skipping {l : Link} {s : State} (he : (s.link l).enabled = true)
    (hs : (s.link l).skipping = true) (c : RxChar) : execCharacterFault l c s = .next (endCharacter l s) := by
  simp [execCharacterFault, he, hs]

/-- Any other character without fault is delivered as a byte (R4). -/
theorem execByteReceived_taken {l : Link} {s : State} {c : RxChar} {b : Byte} (he : (s.link l).enabled = true)
    (hs : (s.link l).skipping = false) (hb : judgeChar (s.link l).charParity c = .byte b) :
    execByteReceived l c s = .next (receiveByte l b (endCharacter l s)) := by
  simp [execByteReceived, he, hs, hb]

/-- A DISABLED link takes no character (R21). -/
theorem execByteReceived_disabled {l : Link} {s : State} (he : (s.link l).enabled = false) (c : RxChar) :
    execByteReceived l c s = .next s := by simp [execByteReceived, he]

/-- ENABLE_LINK opens the link at HUNT, and keeps out the character under way (R22). -/
@[simp] theorem enableEffect_link_same (t : Link) (wire : WireIn) (s : State) :
    (enableEffect t wire s).link t = { s.link t with enabled := true, rx := .hunt, skipping := wire.underWay } := by
  simp [enableEffect]

/-- A SET_LINK keeps a character under way to its old parity or, when it is not taken, out of the link (R20, R22). -/
theorem LinkState.withSettings_underWay (ls : LinkState) (wire : WireIn) (w : LinkSettings) :
    ((ls.withSettings wire w).skipping = true ↔ ls.skipping = true ∧ wire.underWay = true) ∧
      ((ls.withSettings wire w).skipping = true → (ls.withSettings wire w).oldParity = none) := by
  cases h1 : ls.skipping <;> cases h2 : wire.underWay <;> simp [LinkState.withSettings, h1, h2]

end Sys2Proof.Machine
end

