-- ==== Sys2Proof/WellFormed.lean ====
section
/-! DEFINITION. Which commands are well formed. The operand types leave one thing to check: a character received without
fault has its stop bit sampled high (R1). Whether its parity is right depends on the link's setting, so the meaning judges
that. -/

namespace Sys2Proof

/-- A character without fault has a high stop bit, under every parity setting (R1). -/
def RxChar.mayBeFaultless (c : RxChar) : Bool := c.stopBit

/-- Well-formedness of a command. -/
def Instr.wellFormed : Instr → Bool
  | .byteReceived _ c => c.mayBeFaultless
  | .powerOnReset _ => true
  | .characterFault _ _ => true
  | .idle _ => true
  | .leadExpiry _ => true
  | .replyComplete _ => true
  | .tailExpiry _ => true
  | .setLink _ => true
  | .setReturnLimit _ => true
  | .disableLink _ => true
  | .enableLink _ => true
  | .setPermissions _ => true
  | .softRestart _ => true
  | .controlCarrierOn _ => true
  | .controlCarrierOff _ => true
  | .controlCodeOn _ => true
  | .controlCodeOff _ => true
  | .controlProfileSelect _ => true
  | .controlSpare _ => true
  | .setTimebase _ => true
  | .setBalance _ => true
  | .setCivil _ => true
  | .setWindows _ => true
  | .addLeap _ => true
  | .deleteLeap _ => true
  | .addTransition _ => true
  | .deleteTransition _ => true
  | .writeMap _ => true
  | .copyMap _ => true
  | .commitMap _ => true
  | .cancelCommit _ => true
  | .writeTest _ => true
  | .pushOverride _ => true
  | .popOverride _ => true
  | .removeOverride _ => true
  | .writeProfile _ => true
  | .setRamp _ => true
  | .setAssemblySlot _ => true
  | .writeLines _ _ => true
  | .readMap _ => true
  | .readProfile _ => true
  | .readLists _ => true
  | .readStack _ => true
  | .readWord _ => true
  | .readLines _ => true
  | .readStatus _ => true
  | .unknownRequest _ => true
  | .keyingStep _ => true
  | .risingComplete => true
  | .fallingComplete => true
  | .flywheelWrap => true
  | .assemblyCompletion => true
  | .pulse _ => true
  | .missingSecond _ => true
  | .lineFilterChange _ => true
  | .strobeEnd _ => true
  | .characterInProgressCompleted _ => true

end Sys2Proof
end

