-- ==== Sys2Proof/Tests/Slice0.lean ====
section
/-! SUPPORT. Tests of the model against the spec's own tables and worked examples, and the smoke test of well-formedness.
The witnesses of the statements are in Tests/Witnesses.lean. -/

namespace Sys2Proof.Tests

open Sys2Proof Sys2Proof.Machine

/-! ### Small states -/

/-- The state after reset with one request frame for node 1, reply wanted, at the head of a link's queue. -/
def ask (src : Link) (name : Byte) (args : List Byte) (s : State := State.reset) : State :=
  s.setLink src { s.link src with queue := [{ address := 1, payload := name :: 1 :: 7 :: args }] }

/-- The request in that frame. -/
def req (src : Link) (name : Byte) (args : List Byte) : Request :=
  { src := src, broadcast := false, name := name, replyWanted := true, tag := 7, args := args }

/-- The executor takes it next, when its transmitter is free and the other queue is empty. -/
theorem takes_ask (src : Link) (name : Byte) (args : List Byte) (s : State) (h1 : (s.link src).tx.free = true)
    (h2 : (s.link src.other).queue = []) : Takes name src (ask src name args s) (req src name args) := by
  refine ⟨{ address := 1, payload := name :: 1 :: 7 :: args }, [], by simp [ask], ?_, rfl, rfl⟩
  simp [serves, eligible, ask, h1, h2]

/-- The label of a normal second with its count. -/
def labelAt (u count : Nat) : Label := splitLabel u count .none

/-- Time valid: the second u with balance 0, link A active, B qualified. -/
def running (u : Nat) : State :=
  let mon (st : MonitorState) : Monitor :=
    { state := st, good := 10, last := some (u, 0), timer := some 0, missed := 0, missDue := false, waiting := false }
  (State.reset.withTimeScale { balance := 0, pendingBalance := none, label := some (labelAt u u) }).withTimebase
    { State.reset.timebase with
      count := some u, active := some .a, monitors := { a := mon .active, b := mon .qualified } }

/-- The epoch frame of a count, locked. -/
def frameOf (count : Nat) : EpochFrame := { count := count, quality := .locked, hint := .none }

/-- A state with a frame in a link's latch and the flywheel at m. -/
def latched (x : Link) (count m : Nat) (s : State) : State :=
  (s.setLink x { s.link x with latch := some (frameOf count) }).withTimebase { s.timebase with m := m }

/-- A short word: 60 slots, MARK in slot 0, ONE in slot 1, NIL else. -/
def shortWord (transmitted : Nat) : CodeWord :=
  { kind := .test, transmitted := transmitted, length := 60,
    symbols := .mark :: .one :: List.replicate 58 .nil, fields := fieldValues (transmitted + 1) 0 0,
    flags := { leapAnn := false, leapNeg := false, chgAnn := false, summer := false, holdover := false },
    profile := 0, broken := false }

/-- A carrier in a state with a code, at k = Rc = 2000. -/
def carrierIn (state : CarrierState) (code : CodeState) (offAfter : Bool := false) : State :=
  State.reset.withCarrier { State.reset.carrier with state := state, k := 2000, code := code, offAfter := offAfter }

/-- A line of the state after reset with other settings. -/
def withLine (n : LineId) (f : LineState → LineState) (s : State := State.reset) : State := s.setLine n (f (s.line n))

/-- The state that a command answers with; the state itself when it answers otherwise (no command does). -/
def after (c : Instr) (s : State) : State :=
  match exec c s with
  | .next t => t
  | .fault _ => s
  | .refused _ => s

/-! ### Well-formedness (R1) -/

theorem test_low_stop_bit_is_no_byte :
    Instr.wellFormed (.byteReceived .a { data := 0xC3, parityBit := false, stopBit := false }) = false := by decide

theorem test_high_stop_bit_is_a_byte :
    Instr.wellFormed (.byteReceived .a { data := 0xC3, parityBit := false, stopBit := true }) = true := by decide

/-! ### Links and frames (01) -/

/-- The worked header of 1.11: check bits 10010b and parity 0, so the check byte is 12h. -/
theorem test_worked_check_byte : checkByte { address := 0x05, kind := 0x02, length := 0x07 } = 0x12 := by decide

/-- The same header with bit 17 inverted, at position 23, is corrected (R6, 1.11). -/
theorem test_worked_correction :
    judgeHeader { address := 0x05, kind := 0x02, length := 0x05 } 0x12 =
      .corrected { address := 0x05, kind := 0x02, length := 0x07 } := by decide

/-- The check value of the CRC of R9 over the nine digits. -/
theorem test_crc_of_digits : crc16 [0x31, 0x32, 0x33, 0x34, 0x35, 0x36, 0x37, 0x38, 0x39] = 0x29B1 := by decide +kernel

/-- A parity fault is a fault only under the link's parity (R1). -/
theorem test_parity_by_setting :
    judgeChar .even { data := 0x01, parityBit := false, stopBit := true } = .parity ∧
    judgeChar .odd { data := 0x01, parityBit := false, stopBit := true } = .byte 0x01 ∧
    judgeChar .none { data := 0x01, parityBit := false, stopBit := true } = .byte 0x01 ∧
    judgeChar .odd { data := 0x01, parityBit := false, stopBit := false } = .framing := by decide

/-- An epoch frame of 12.6: five bytes of count, quality DEGRADED, hint INSERT_TODAY. -/
theorem test_epoch_payload :
    epochOf [0x00, 0x3A, 0xC3, 0xE2, 0x99, 0x01, 0x01] =
      { count := 985916057, quality := .degraded, hint := .insertToday } := by decide

/-- R22: of two characters on a link enabled in the middle of the first, the receiver takes the second alone, also after a
SET_LINK in the first. -/
theorem test_enabled_in_a_character :
    let wire : WireIn := { underWay := true, begun := 0 }
    let off := State.reset.setLink .b { State.reset.link .b with enabled := false }
    let on := (enableLinkAnswer wire (req .a 0x04 [1]) off).state
    let reset := (setLinkAnswer wire (req .a 0x01 [1, 1, 2, 0, 0, 0]) on).state
    let delimiters (p : Parity) : List Instr := [.byteReceived .b (goodChar .none 0xC3), .byteReceived .b (goodChar p 0xC3)]
    (((delimiters .none).take 1).foldl (fun s c => after c s) on).links = State.reset.links ∧
    (((delimiters .none).foldl (fun s c => after c s) on).link .b).rx = .header [] ∧
    (((delimiters .odd).take 1).foldl (fun s c => after c s) reset |>.link .b).rx = .hunt ∧
    (((delimiters .odd).foldl (fun s c => after c s) reset).link .b).rx = .header [] := by decide

/-- A request that arrives character by character is queued at idle (R10, R12). -/
theorem test_request_arrives :
    let chars := (encodeFrame 1 2 [0x16, 1, 9]).map (fun b => Instr.byteReceived .b (goodChar .none b)) ++ [.idle .b]
    ((chars.foldl (fun s c => after c s) State.reset).link .b).queue = [{ address := 1, payload := [0x16, 1, 9] }] := by
  decide +kernel

/-! ### Time scale, calendar and lists (04, 05) -/

/-- 4.8: day 11411 is 2031-03-30, a Sunday. -/
theorem test_worked_date : dateOf 11411 = { year := 2031, month := 3, mday := 30 } ∧ weekdayOf 11411 = 7 := by decide

/-- 4.8: the count 985,913,945 with balance 5 is day 11411, 00:59:00. -/
theorem test_worked_label :
    labelOf (985913945 - 5) [] 985913945 .none =
      some { day := 11411, hour := 0, minute := 59, second := 0, inserted := false, u := 985913940, count := 985913945,
             mark := .none } := by decide

/-- 4.8: described minute 16,431,900 under O = 8 is 03:00 on 30 March 2031. -/
theorem test_worked_fields :
    fieldValues 16431900 8 0 =
      { minute := 0, hour := 3, mday := 30, wday := 7, month := 3, year := 31, offset := 8, spare := 0 } := by decide

/-- 4.11: the first and the last rows at the edges of the span. -/
theorem test_span_edges :
    fieldValues 1 (-48) 0 =
      { minute := 1, hour := 12, mday := 31, wday := 5, month := 12, year := 99, offset := -48, spare := 0 } ∧
    fieldValues 52596000 56 0 =
      { minute := 0, hour := 14, mday := 1, wday := 5, month := 1, year := 0, offset := 56, spare := 0 } := by decide

/-- 4.10: four first counts against INSERT of day 11503 with balance 5: the balance after each. -/
theorem test_worked_catch_up :
    [993945604, 993945605, 993945606, 993945616].map (fun c => (applyDue c 5 [{ day := 11503, insert := true }]).1) =
      [5, 5, 6, 6] := by decide

/-- 4.9: the inserted second shares the second number of 23:59:59. -/
theorem test_worked_insertion :
    (labelOf 993945600 [{ day := 11503, insert := true }] 993945605 .none).map (fun l => (l.u, l.second, l.inserted)) =
      some (993945599, 60, true) := by decide

/-- 5.7 and 5.8: announcements by described minute. -/
theorem test_worked_announcements :
    let r : RuleLists :=
      { State.reset.rules with
        leaps := [{ day := 11503, insert := true }], transitions := [{ minute := 16565760, offset := 4, summer := false }] }
    [16565699, 16565700, 16565759, 16565760].map (fun t => (leapAnn r t, chgAnn r t)) =
      [(false, false), (true, true), (true, true), (false, false)] := by decide

/-- 5.9: the frame in the inserted second belongs to the day of the head. -/
theorem test_worked_hint_days :
    frameDay [{ day := 11503, insert := true }] 993945600 = 11503 ∧ frameDay [] 993945600 = 11504 := by decide

/-! ### Code maps and words (06, 07) -/

/-- R112: the factory map has 61 entries and passes every check. -/
theorem test_factory_map : factoryMap.length = 61 ∧ firstFailingCheck factoryMap = none := by decide

/-- R112: places of the factory map named in the table of the chapter. -/
theorem test_factory_places :
    [0, 12, 19, 29, 30, 44, 52, 53, 58, 59, 60].map (fun i => (factoryMap[i]?).map (·.kind)) =
      [some .mark, some .parity, some .parity, some .parity, some .mark, some .parity, some .parity, some .flag,
       some .parity, some .nil, some .const0] := by decide

/-- 6.10: the worked validations that fail, each by its number. -/
theorem test_worked_validation :
    let minute (w : Nat) : MapEntry := { kind := .field, members := 0, code := 0, weight := BitVec.ofNat 8 w, groups := 0 }
    firstFailingCheck (factoryMap.set 59 (minute 1)) = some 2 ∧
    firstFailingCheck ((factoryMap.set 59 (minute 1)).set 10 (minute 30)) = some 2 ∧
    firstFailingCheck (factoryMap.set 10 (minute 30)) = some 4 ∧
    firstFailingCheck (factoryMap.set 60 (factorySpare 0)) = some 3 ∧
    firstFailingCheck (factoryMap.set 12 (factoryParity 7 false)) = some 6 ∧
    firstFailingCheck (factoryMap.set 30 (plainEntry .nil)) = none := by decide

/-- R101: the tail rule for 61, 60 and 59 slots. -/
theorem test_tail_rule :
    (tailPositions 61).drop 58 = [58, 60, 59] ∧ (tailPositions 60).drop 58 = [58, 59] ∧
      (tailPositions 59).drop 57 = [57, 59] := by decide

/-- 7.8: in the word described 16,431,900 the hour 3 gives ONE at weights 1 and 2. -/
theorem test_worked_hour_bits :
    [1, 2, 4, 8, 10, 20].map (fieldBit (fieldValues 16431900 8 0) 1) = [true, true, false, false, false, false] := by
  decide

/-! ### Keying, carrier and lines (09, 10, 11) -/

/-- The worked ramp of chapter 9, down and up. -/
theorem test_worked_ramp :
    ([0, 1, 2, 3, 4, 5, 6, 99, 100, 101, 104, 105, 106].map
      (sampleAmplitude (latchOf factoryProfiles 0 .zero))) =
      [859, 717, 575, 434, 292, 150, 150, 150, 291, 433, 858, 1000, 1000] := by decide

/-- 10.7: at k = 995 of 2000 the amplitude is 497. -/
theorem test_worked_rise : rampAmplitude { State.reset.carrier with state := .rising, k := 995 } = 497 := by decide

/-- R170: an early pulse makes a slot 0 boundary in the step in which a rise has ended. The word is handed over, but the code
waits; on a carrier that was STEADY before the step it starts. -/
theorem test_code_waits_for_steady :
    let s (state : CarrierState) : State :=
      ((latched .a 3600 999 (running 3599)).withCarrier
        { State.reset.carrier with state := state, k := 2000, code := .armed, rampEnd := state == .rising }).withAssembler
        { State.reset.assembler with pendingWord := some (shortWord 60) }
    let t (state : CarrierState) : State := after (.pulse ⟨.ppsA, none⟩) (after .risingComplete (s state))
    ((t .rising).carrier.state, (t .rising).carrier.code) = (.steady, .armed) ∧
    (t .rising).assembler.current.isSome = true ∧ (t .rising).keying.latch.symbol = .nil ∧
    ((t .steady).carrier.state, (t .steady).carrier.code) = (.steady, .running) ∧ (t .steady).keying.latch.symbol = .mark := by
  decide +kernel

/-- 10.8: a halt at 150 falls from k = 300. -/
theorem test_worked_halt_position : positionFor 2000 1000 150 = 300 := by decide

/-- 11.11: with filter time 3 the fourth differing sample in a row makes the change due. -/
theorem test_worked_filter :
    let ln : LineState := { State.reset.line .l1 with filter := 3, filtered := true }
    let run (raws : List Bool) : LineState := raws.foldl LineState.sample ln
    (run [false, false, true]).run = 0 ∧ (run [false, false, false]).filterDue = false ∧
      (run [false, false, false, false]).filterDue = true := by decide

/-- R176: REPLY_DRIVE outranks PULSE_B_ALT on L6. -/
theorem test_line_ranks :
    holderRank .l6 0x03 = some 0 ∧ holderRank .l6 0x02 = some 1 ∧ holderRank .l6 0x00 = none := by decide

/-! ### Requests (02) -/

/-- 2.10: an image of 40 bytes under limit 16 comes in three reads, and one of 32 in two. -/
theorem test_worked_chain :
    [0, 16, 32].map (fun o => (readAnswer (List.replicate 40 0x55) o 16 State.reset).data.length) = [18, 18, 10] ∧
    (readAnswer (List.replicate 32 0x55) 32 16 State.reset).outcome = .done ∧
    (readAnswer (List.replicate 32 0x55) 33 16 State.reset).outcome = .refused .range := by decide

/-- R30, R135: profile 5 in a PUSH_OVERRIDE is clamped to 3. -/
theorem test_worked_clamped_push :
    (pushOverrideAnswer (req .a 0x15 [1, 5, 0, 1, 0, 3]) State.reset).outcome = .doneClamped ∧
    (pushOverrideAnswer (req .a 0x15 [1, 5, 0, 1, 0, 3]) State.reset).state.stack =
      [{ value := .profile 3, remaining := some 3, link := .a, mark := false }] := by decide

/-- R33: the privileged link cannot grant PERMISSIONS. -/
theorem test_permissions_never_granted :
    (setPermissionsAnswer (req .a 0x05 [0x08, 0x00, 0, 0]) State.reset).outcome = .refused .range := by decide

end Sys2Proof.Tests
end

