-- ==== Sys2Proof/Tests/Witnesses.lean ====
section
/-! SUPPORT. For every statement with hypotheses, concrete states and operands that meet the hypotheses of each clause together,
at the ends of a clause's range where it has one. -/

namespace Sys2Proof.Tests

open Sys2Proof Sys2Proof.Machine

/-! ### Queue, errors and characters -/

theorem witness_StepRunsFrontCommand :
    (State.reset.withPending [.flywheelWrap, .idle .a]).pending = .flywheelWrap :: [.idle .a] ∧
      State.reset.pending = [] := by decide

theorem witness_CharactersByReceiveState :
    let h : Header := { address := 1, kind := 2, length := 3 }
    (State.reset.link .a).enabled = true ∧ (State.reset.link .a).rx = .hunt ∧ (State.reset.link .a).skipping = false ∧
    ((State.reset.setLink .a { State.reset.link .a with skipping := true }).link .a).skipping = true ∧
    judgeChar .none { data := 0xC3, parityBit := false, stopBit := true } = .byte 0xC3 ∧
    ((setRx .a (.header [1, 2]) State.reset).link .a).rx = .header [1, 2] ∧ [(1 : Byte), 2].length < 3 ∧
    ((setRx .a (.payload h 0 [1, 2, 3]) State.reset).link .a).rx = .payload h 0 [1, 2, 3] ∧
    [(1 : Byte), 2, 3].length < h.length.toNat + 1 ∧ [(1 : Byte), 2, 3, 4].length = h.length.toNat + 1 ∧
    h.length.toNat + 2 ≤ [(1 : Byte), 2, 3, 4, 5].length ∧
    ((setRx .a .muted State.reset).link .a).rx = .muted ∧
    judgeChar .none { data := 0, parityBit := false, stopBit := false } = .framing ∧
    ((State.reset.link .a).oldParity.getD (State.reset.link .a).settings.parity) = .none ∧
    ((some Parity.even).getD (State.reset.link .a).settings.parity) = .even ∧
    judgeChar .even { data := 1, parityBit := false, stopBit := true } = .parity := by decide

theorem witness_HeadersAreFiltered :
    let h (a k n : Nat) : Header := { address := BitVec.ofNat 8 a, kind := BitVec.ofNat 8 k, length := BitVec.ofNat 8 n }
    ((setRx .a (.header [5, 2, 7]) State.reset).link .a).rx = .header [5, 2, 7] ∧
    (State.reset.link .a).settings.node = 1 ∧ (State.reset.link .a).enabled = true ∧
    (State.reset.link .a).skipping = false ∧
    judgeHeader (h 5 2 7) 0x11 = .bad ∧ judgeHeader (h 5 2 7) 0x12 = .clean ∧
    judgeHeader (h 5 2 5) 0x12 = .corrected (h 5 2 7) ∧
    judgeHeader (h 1 4 7) (checkByte (h 1 4 7)) = .clean ∧ judgeHeader (h 1 1 7) (checkByte (h 1 1 7)) = .clean ∧
    judgeHeader (h 1 2 241) (checkByte (h 1 2 241)) = .clean ∧ judgeHeader (h 0 1 6) (checkByte (h 0 1 6)) = .clean ∧
    judgeHeader (h 1 2 240) (checkByte (h 1 2 240)) = .clean ∧ judgeHeader (h 0 1 7) (checkByte (h 0 1 7)) = .clean := by
  decide

theorem witness_IdleTakesFrames :
    let rq (k : Nat) : RxState := .payload { address := 0, kind := BitVec.ofNat 8 k, length := 0 } 0 [1, 2]
    (∀ k ∈ [1, 2, 3], ((setRx .b (rq k) State.reset).link .b).rx = rq k) ∧
    [(1 : Byte)].length < (0 : Byte).toNat + 2 ∧ (0 : Byte).toNat + 2 ≤ [(1 : Byte), 2].length ∧
    (State.reset.link .b).enabled = true ∧ (State.reset.link .b).quarantined = false ∧
    (State.reset.link .b).queue.length < 4 ∧ [(0x26 : Byte)].head? = some 0x26 ∧ ([] : List Byte).head? ≠ some 0x26 ∧
    ((State.reset.setLink .b { State.reset.link .b with quarantined := true }).link .b).quarantined = true ∧
    4 ≤ ((State.reset.setLink .b
      { State.reset.link .b with queue := List.replicate 4 { address := 0, payload := [] } }).link .b).queue.length := by
  decide

theorem witness_WholeFramesArrive :
    (State.reset.link .a).enabled = true ∧ (State.reset.link .a).rx = .hunt ∧ (State.reset.link .a).oldParity = none ∧
    (State.reset.link .a).skipping = false ∧ (List.replicate 240 (0x55 : Byte)).length ≤ 240 ∧ (List.replicate 7 (0 : Byte)).length = 7 ∧
    (1 : Byte).toNat = (State.reset.link .a).settings.node ∧ (State.reset.link .a).queue.length < 4 ∧
    (State.reset.link .a).quarantined = false ∧ (State.reset.link .a).latch = none := by decide +kernel

theorem witness_TransmitterPassesItsStates :
    let r : Reply := { address := 1, tag := 7, outcome := .done, data := [], ofStatus := true }
    let c := charBits .none 1
    (∀ n ∈ [1, 2], [c].length ≤ n ∧ n ≤ [(1 : Byte), 2].length ∧ 1 ≤ n) ∧ 0 ≤ [(1 : Byte), 2].length ∧
    ((setTx .a (.lead r) State.reset).link .a).tx = .lead r ∧
    ((setTx .a (.sending [1, 2] [c]) State.reset).link .a).tx = .sending [1, 2] [c] ∧
    (setTx .a (.sending [1, 2] [c]) State.reset).executor.restartPending ≠ some .a ∧
    ((setTx .a .tail State.reset).link .a).tx = .tail ∧ (State.reset.link .a).tx = .idle ∧
    ((setTx .a (.finishing c) State.reset).link .a).tx = .finishing c := by decide

/-! ### The executor -/

/-- Both links with a request that wants no reply. -/
def bothAsk : State :=
  let f : ReqFrame := { address := 0, payload := [0x16, 1, 9] }
  (State.reset.setLink .a { State.reset.link .a with queue := [f] }).setLink .b
    { State.reset.link .b with queue := [f] }

theorem witness_RoundRobinServesOneLink :
    eligible (ask .a 0x16 []) .a = true ∧ eligible (ask .a 0x16 []) .b = false ∧
    eligible bothAsk .a = true ∧ eligible bothAsk .b = true ∧ serves bothAsk .a = true ∧ serves bothAsk .b = false ∧
    (State.reset.link .a).queue = [] := by decide

theorem witness_RepliesGoToTheSourceLink :
    let rq := req .a 0x16 []
    let drive := withLine .l5 (fun ln => { ln with enables := 1 })
    let s := drive.setLink .a { drive.link .a with settings := { (drive.link .a).settings with lead := 2 } }
    rq.replyWanted = true ∧ rq.broadcast = false ∧ { rq with broadcast := true }.broadcast = true ∧
    ((s.link .a).tx = .idle ∧ replyDriveEnabled .a s = true ∧ (s.link .a).settings.lead ≠ 0) ∧
    ¬((State.reset.link .a).tx = .idle ∧ replyDriveEnabled .a State.reset = true ∧
      (State.reset.link .a).settings.lead ≠ 0) := by decide

theorem witness_RefusedRequestsChangeNothing :
    let pins : PinIn := { driven := 0, level := 0 }
    let wire : WireIn := { underWay := false, begun := 0 }
    ((⟨0x16, .popOverride .b, checked 0 .overrides popOverrideAnswer, some 0, some .overrides⟩ : RequestRow) ∈
        requestRows .b pins wire ∧ Takes 0x16 .b (ask .b 0x16 [1]) (req .b 0x16 [1]) ∧ (req .b 0x16 [1]).args.length ≠ 0 ∧
      Takes 0x16 .b (ask .b 0x16 []) (req .b 0x16 []) ∧ (req .b 0x16 []).args.length = 0 ∧
      Link.b ≠ (ask .b 0x16 []).executor.privileged ∧
      hasBit (ask .b 0x16 []).executor.permissions PermClass.overrides.bit = false) ∧
    (Takes 0x10 .b (ask .b 0x10 [0, 1]) (req .b 0x10 [0, 1]) ∧
      (req .b 0x10 [0, 1]).args.length ≠ 2 + 4 * (req .b 0x10 [0, 1]).num 1 ∧
      Takes 0x10 .b (ask .b 0x10 [0, 0]) (req .b 0x10 [0, 0]) ∧
      (req .b 0x10 [0, 0]).args.length = 2 + 4 * (req .b 0x10 [0, 0]).num 1 ∧
      hasBit (ask .b 0x10 [0, 0]).executor.permissions PermClass.maps.bit = false) ∧
    (Takes 0x14 .b (ask .b 0x14 (59 :: List.replicate 60 3)) (req .b 0x14 (59 :: List.replicate 60 3)) ∧
      (req .b 0x14 (59 :: List.replicate 60 3)).num 0 ≠ 60 ∧
      Takes 0x14 .b (ask .b 0x14 (60 :: List.replicate 60 3)) (req .b 0x14 (60 :: List.replicate 60 3)) ∧
      (req .b 0x14 (60 :: List.replicate 60 3)).args.length = 61 ∧ (req .b 0x14 (60 :: List.replicate 60 3)).num 0 = 60) ∧
    (Takes 0x07 .b (ask .b 0x07 [1, 1, 0, 0, 0]) (req .b 0x07 [1, 1, 0, 0, 0]) ∧ (req .b 0x07 [1, 1, 0, 0, 0]).args.length ≠ 6) ∧
    (checked 0 .overrides popOverrideAnswer (req .a 0x16 []) State.reset).outcome = .refused .stackEmpty ∧
    (controlAnswer (req .b 0x07 [1, 1, 0, 0, 0]) State.reset).outcome = .refused .length :=
  ⟨⟨by simp [requestRows], takes_ask _ _ _ _ rfl rfl, by decide, takes_ask _ _ _ _ rfl rfl, by decide⟩,
    ⟨takes_ask _ _ _ _ rfl rfl, by decide, takes_ask _ _ _ _ rfl rfl, by decide⟩,
    ⟨takes_ask _ _ _ _ rfl rfl, by decide, takes_ask _ _ _ _ rfl rfl, by decide⟩,
    ⟨takes_ask _ _ _ _ rfl rfl, by decide⟩, by decide⟩

/-- An ACTIVE code, a full list each, a full stack with a TEST entry, a commit and a restart pending. -/
def crowded : State :=
  let s := State.reset
  ((((s.withCarrier { s.carrier with state := .steady, code := .armed }).withRules
    { s.rules with
      leaps := [0, 1, 2, 3].map fun d => { day := d, insert := true }
      transitions := (List.range 16).map fun m => { minute := m, offset := 0, summer := false }
      lateRef := some 1439 }).withAssembler
    { s.assembler with commitPending := true, test := List.replicate 60 .zero }).withStack
    (List.replicate 4 { value := .content true, remaining := none, link := .a, mark := false })).withExecutor
    { s.executor with restartPending := some .a }

theorem witness_RequestsNameTheirReason :
    let r (args : List Byte) : Request := req .a 0 args
    (linkOf 2 = none ∧ parityOf 3 = none ∧ boolOf 2 = none ∧ linkOf 0 = some (r []).src ∧ linkOf 1 = some (r []).src.other ∧
      (req .b 0 []).src ≠ State.reset.executor.privileged ∧ (r []).src = State.reset.executor.privileged) ∧
    ((r [0, 1, 0, 1]).classSet 0 &&& (r [0, 1, 0, 1]).classSet 2 ≠ 0 ∧
      (r [8, 0, 0, 0]).classSet 0 &&& (r [8, 0, 0, 0]).classSet 2 = 0 ∧
      ((r [8, 0, 0, 0]).classSet 0 ||| (r [8, 0, 0, 0]).classSet 2).getLsbD 11 = true ∧ (r [0, 1, 0, 0]).classSet 0 ≠ 0) ∧
    (crowded.executor.restartPending ≠ none ∧ State.reset.executor.restartPending = none ∧ crowded.carrier.state ≠ .off ∧
      crowded.carrier.code ≠ .off ∧ State.reset.carrier.code = .off ∧ (r [0xDF]).signed 0 < -32 ∧
      (r [0xCF]).signed 0 < -48 ∧ 56 < (r [57]).signed 0) ∧
    (36524 < (r [0x8E, 0xAD]).num2 0 ∧ (∃ x ∈ crowded.rules.leaps, x.day = (r [0, 0]).num2 0) ∧
      (∀ x ∈ crowded.rules.leaps, x.day ≠ (r [0, 9]).num2 0) ∧ 4 ≤ crowded.rules.leaps.length ∧
      leapLate crowded (1440 * 0 + 1439) = true ∧ leapLate State.reset (1440 * 9 + 1439) = false ∧
      State.reset.rules.leaps.Pairwise (·.day < ·.day) ∧ boolOf 1 = some (!false) ∧
      sumsInRange (-32) (State.reset.rules.leaps.filter (·.day < 9) ++ { day := 9, insert := false } ::
        State.reset.rules.leaps.filter (9 < ·.day)) = false) ∧
    (52595999 < (r [3, 0x22, 0x8D, 0x20]).num4 0 ∧ transitionLate crowded 1440 = true ∧ transitionLate crowded 1441 = false ∧
      (∀ x ∈ crowded.rules.transitions, x.minute ≠ 1441) ∧ 16 ≤ crowded.rules.transitions.length ∧
      (∃ x ∈ crowded.rules.transitions, x.minute = (r [0, 0, 0, 15]).num4 0)) ∧
    (crowded.assembler.commitPending = true ∧ State.reset.assembler.commitPending = false ∧
      61 < (r [61, 1]).num 0 + (r [61, 1]).num 1 ∧ entriesOf [7, 0, 0, 0] = none ∧ symbolsOf [4] = none ∧
      symbolsOf (List.replicate 60 1) = some crowded.assembler.test ∧ hasTestEntry crowded.stack = true ∧
      crowded.assembler.test[0]? ≠ some .mark) ∧
    (overrideValueOf 3 0 0 = none ∧ overrideValueOf 0 1 0 = some (.content true) ∧ 4 ≤ crowded.stack.length ∧
      3 < (r [4]).num 0 ∧ 8 < (r [9]).num 0 ∧ 2 ^ (functionsOf .l7).length ≤ (r [7, 1]).num 1 ∧
      64 < (r [0, 65]).num2 0 ∧ 3 < (r [0, 0, 4]).num 2) := by decide +kernel

theorem witness_ReadChainsBringTheImage :
    let image := List.replicate 200 (0x55 : Byte)
    image.length < 65536 ∧ image.length < 201 ∧ 191 + 8 < image.length ∧ 200 ≤ image.length ∧ image.length ≤ 8 + 192 := by
  decide +kernel

/-! ### Requests on links, rights and the part -/

theorem witness_LinkRequestsTakeEffect :
    (Takes 0x01 .a (ask .a 0x01 [1, 64, 2, 1, 16, 0]) (req .a 0x01 [1, 64, 2, 1, 16, 0]) ∧
      permitted (ask .a 0x01 [1, 64, 2, 1, 16, 0]) .a .link = true ∧ linkOf 1 = some .b ∧ parityOf 2 = some .odd ∧
      boolOf 1 = some true ∧ ((ask .a 0x01 [1, 64, 2, 1, 16, 0]).link .b).enabled = true) ∧
    (Takes 0x02 .a (ask .a 0x02 [7]) (req .a 0x02 [7]) ∧ permitted (ask .a 0x02 [7]) .a .link = true) ∧
    (Takes 0x03 .a (ask .a 0x03 [1]) (req .a 0x03 [1]) ∧ linkOf 1 = some Link.a.other ∧
      Link.a = (ask .a 0x03 [1]).executor.privileged ∧ ((ask .a 0x03 [1]).link .b).enabled = true) ∧
    let s := State.reset.setLink .b { State.reset.link .b with enabled := false }
    Takes 0x04 .a (ask .a 0x04 [1] s) (req .a 0x04 [1]) ∧ ((ask .a 0x04 [1] s).link .b).enabled = false :=
  ⟨⟨takes_ask _ _ _ _ rfl rfl, by decide⟩, ⟨takes_ask _ _ _ _ rfl rfl, by decide⟩,
    ⟨takes_ask _ _ _ _ rfl rfl, by decide⟩, takes_ask _ _ _ _ rfl rfl, by decide⟩

theorem witness_RightsAndRestartRequestsTakeEffect :
    (Takes 0x05 .a (ask .a 0x05 [7, 0xFF, 0, 0]) (req .a 0x05 [7, 0xFF, 0, 0]) ∧
      Link.a = (ask .a 0x05 [7, 0xFF, 0, 0]).executor.privileged ∧
      BitVec.ofNat 16 ((req .a 0x05 [7, 0xFF, 0, 0]).num2 0) &&& 0x0FFF = 0x07FF ∧
      (0x07FF &&& 0 : BitVec 16) = 0 ∧ (0x07FF ||| 0 : BitVec 16).getLsbD 11 = false) ∧
    (Takes 0x05 .b (ask .b 0x05 [0, 0, 0, 0]) (req .b 0x05 [0, 0, 0, 0]) ∧
      Link.b ≠ (ask .b 0x05 [0, 0, 0, 0]).executor.privileged ∧
      BitVec.ofNat 16 ((req .b 0x05 [0, 0, 0, 0]).num2 0) &&& 0x0FFF = 0) ∧
    (Takes 0x06 .a (ask .a 0x06 []) (req .a 0x06 []) ∧ permitted (ask .a 0x06 []) .a .restart = true ∧
      (ask .a 0x06 []).executor.restartPending = none ∧ (ask .a 0x06 []).carrier.state = .off ∧
      (req .a 0x06 []).replyWanted = true ∧ (req .a 0x06 []).broadcast = false) ∧
    (Takes 0x27 .a (ask .a 0x27 []) (req .a 0x27 []) ∧
      ¬((1 ≤ (0x27 : Byte).toNat ∧ (0x27 : Byte).toNat ≤ 27) ∨ (32 ≤ (0x27 : Byte).toNat ∧ (0x27 : Byte).toNat ≤ 38))) ∧
    let s := State.reset.setLink .a { State.reset.link .a with queue := [{ address := 1, payload := [0x16, 1] }] }
    (s.link .a).queue = { address := 1, payload := [0x16, 1] } :: [] ∧ serves s .a = true ∧ [(0x16 : Byte), 1].length < 3 :=
  ⟨⟨takes_ask _ _ _ _ rfl rfl, by decide⟩, ⟨takes_ask _ _ _ _ rfl rfl, by decide⟩,
    ⟨takes_ask _ _ _ _ rfl rfl, by decide⟩, ⟨takes_ask _ _ _ _ rfl rfl, by decide⟩, by decide⟩

theorem witness_SoftRestartKeepsTheTables :
    let s := (setTx .b (.sending [1] []) State.reset).withExecutor
      { State.reset.executor with restartPending := some .b }
    (s.link .b).tx = .sending [1] [] ∧ s.executor.restartPending = some .b := by decide

theorem witness_ControlIsTakenPartByPart :
    (Takes 0x07 .a (ask .a 0x07 [0x0F, 1, 1, 4, 0xFF, 0x0F]) (req .a 0x07 [0x0F, 1, 1, 4, 0xFF, 0x0F]) ∧
      Takes 0x07 .a (ask .a 0x07 [0x03, 0, 0, 0, 0, 0]) (req .a 0x07 [0x03, 0, 0, 0, 0, 0]) ∧
      Takes 0x07 .a (ask .a 0x07 [0x02, 0, 1, 0, 0, 0]) (req .a 0x07 [0x02, 0, 1, 0, 0, 0]) ∧
      Takes 0x07 .a (ask .a 0x07 [0xF0, 1, 0, 0, 0, 0]) (req .a 0x07 [0xF0, 1, 0, 0, 0, 0]) ∧
      (∀ i < 4, (0x0F : Byte).getLsbD i = true) ∧ (∀ i < 2, (0x03 : Byte).getLsbD i = true) ∧
      (∀ i < 4, (0xF0 : Byte).getLsbD i = false)) ∧
    (let s0 := popTaken .a (ask .a 0x07 [0x0F, 1, 1, 4, 0xFF, 0x0F])
    permitted s0 .a .carrier = true ∧
      (carrierPart 1 s0).toOption.any (fun s1 => s1.carrier.state == .rising && (codePart 1 s1).toOption.isSome) = true) ∧
    carrierPart 1 (State.reset.withCarrier { State.reset.carrier with haltLatch := true }) = .error .state ∧
    codePart 1 (popTaken .a (ask .a 0x07 [0x02, 0, 1, 0, 0, 0])) = .error .state ∧
    codePart 0 State.reset = .ok State.reset :=
  ⟨⟨takes_ask _ _ _ _ rfl rfl, takes_ask _ _ _ _ rfl rfl, takes_ask _ _ _ _ rfl rfl, takes_ask _ _ _ _ rfl rfl, by decide⟩,
    by decide, rfl, rfl, rfl⟩

theorem witness_CarrierAndCodePartsByState :
    (∀ st ∈ [CarrierState.off, .rising, .steady, .falling], (carrierIn st .off).carrier.state = st ∧
      (carrierIn st .off).carrier.haltLatch = false ∧ haltAsserted (carrierIn st .off) = false) ∧
    (∀ c ∈ [CodeState.off, .armed, .running, .ending], (carrierIn .steady c).carrier.code = c ∧
      (carrierIn .steady c).carrier.offAfter = false) ∧
    (carrierIn .steady .ending true).carrier.offAfter = true ∧ (carrierIn .rising .armed).carrier.code = .armed ∧
    haltAsserted (withLine .l1 fun ln => { ln with enables := 1, filtered := true }) = true := by decide

/-! ### Requests on time and lists -/

theorem witness_TimeRequestsTakeEffect :
    (Takes 0x08 .a (ask .a 0x08 [0, 61, 1, 1, 0, 0, 0, 0, 0]) (req .a 0x08 [0, 61, 1, 1, 0, 0, 0, 0, 0]) ∧
      permitted (ask .a 0x08 [0, 61, 1, 1, 0, 0, 0, 0, 0]) .a .timebase = true ∧ linkOf 1 = some .b ∧
      boolOf 1 = some true ∧ boolOf 0 = some false) ∧
    (Takes 0x09 .a (ask .a 0x09 [0xE0]) (req .a 0x09 [0xE0]) ∧ permitted (ask .a 0x09 [0xE0]) .a .rules = true ∧
      (ask .a 0x09 [0xE0]).carrier.code = .off ∧ -32 ≤ (req .a 0x09 [0xE0]).signed 0 ∧
      sumsInRange ((req .a 0x09 [0xE0]).signed 0) (ask .a 0x09 [0xE0]).rules.leaps = true) ∧
    (Takes 0x0A .a (ask .a 0x0A [0xD0, 1]) (req .a 0x0A [0xD0, 1]) ∧ (req .a 0x0A [0xD0, 1]).signed 0 = -48 ∧
      (req .a 0x0A [0x38, 1]).signed 0 = 56) ∧
    Takes 0x0B .a (ask .a 0x0B [0, 0, 5, 0xA1]) (req .a 0x0B [0, 0, 5, 0xA1]) ∧
      (req .a 0x0B [0, 0, 5, 0xA1]).num2 2 = 1441 :=
  ⟨⟨takes_ask _ _ _ _ rfl rfl, by decide⟩, ⟨takes_ask _ _ _ _ rfl rfl, by decide⟩,
    ⟨takes_ask _ _ _ _ rfl rfl, by decide⟩, takes_ask _ _ _ _ rfl rfl, by decide⟩

/-- Three leap entries and two transitions. -/
def listed : State :=
  State.reset.withRules
    { State.reset.rules with
      leaps := [{ day := 5, insert := true }, { day := 7, insert := false }, { day := 9, insert := true }]
      transitions := [{ minute := 10, offset := 4, summer := false }, { minute := 20, offset := 8, summer := true }] }

theorem witness_ListRequestsTakeEffect :
    (crowded.rules.lateRef = some 1439 ∧ (running 59).rules.lateRef = none ∧ (running 59).timebase.count = some 59 ∧
      (running 59).timeScale.label = some (labelAt 59 59) ∧ State.reset.rules.lateRef = none ∧
      State.reset.timebase.count = none) ∧
    (Takes 0x0C .a (ask .a 0x0C [0x8E, 0xAC, 0] listed) (req .a 0x0C [0x8E, 0xAC, 0]) ∧
      permitted (ask .a 0x0C [0x8E, 0xAC, 0] listed) .a .rules = true ∧ (req .a 0x0C [0x8E, 0xAC, 0]).num2 0 = 36524 ∧
      (∀ x ∈ listed.rules.leaps, x.day ≠ 36524) ∧ listed.rules.leaps.length < 4 ∧
      leapLate listed (1440 * 36524 + 1439) = false ∧ listed.rules.leaps.Pairwise (·.day < ·.day) ∧
      sumsInRange 0 (listed.rules.leaps ++ [{ day := 36524, insert := true }]) = true) ∧
    (Takes 0x0D .a (ask .a 0x0D [0, 7] listed) (req .a 0x0D [0, 7]) ∧
      (∃ x ∈ listed.rules.leaps, x.day = (req .a 0x0D [0, 7]).num2 0) ∧ leapLate listed (1440 * 7 + 1439) = false ∧
      sumsInRange 0 (listed.rules.leaps.filter (·.day ≠ 7)) = true) ∧
    (Takes 0x0E .a (ask .a 0x0E [3, 0x22, 0x8D, 0x1F, 0xD0, 1] listed) (req .a 0x0E [3, 0x22, 0x8D, 0x1F, 0xD0, 1]) ∧
      (req .a 0x0E [3, 0x22, 0x8D, 0x1F, 0xD0, 1]).num4 0 = 52595999 ∧
      (req .a 0x0E [3, 0x22, 0x8D, 0x1F, 0xD0, 1]).signed 4 = -48 ∧ boolOf 1 = some true ∧
      transitionLate listed 52595999 = false ∧ listed.rules.transitions.length < 16 ∧
      listed.rules.transitions.Pairwise (·.minute < ·.minute)) ∧
    Takes 0x0F .a (ask .a 0x0F [0, 0, 0, 20] listed) (req .a 0x0F [0, 0, 0, 20]) ∧
      (∃ x ∈ listed.rules.transitions, x.minute = (req .a 0x0F [0, 0, 0, 20]).num4 0) ∧ transitionLate listed 20 = false :=
  ⟨by decide, ⟨takes_ask _ _ _ _ rfl rfl, by decide⟩, ⟨takes_ask _ _ _ _ rfl rfl, by decide⟩,
    ⟨takes_ask _ _ _ _ rfl rfl, by decide⟩, takes_ask _ _ _ _ rfl rfl, by decide⟩

/-! ### Requests on maps, overrides, profiles and lines -/

theorem witness_MapRequestsTakeEffect :
    (Takes 0x10 .a (ask .a 0x10 [60, 1, 2, 0, 0, 0]) (req .a 0x10 [60, 1, 2, 0, 0, 0]) ∧
      permitted (ask .a 0x10 [60, 1, 2, 0, 0, 0]) .a .maps = true ∧
      (ask .a 0x10 [60, 1, 2, 0, 0, 0]).assembler.commitPending = false ∧
      (req .a 0x10 [60, 1, 2, 0, 0, 0]).num 0 + (req .a 0x10 [60, 1, 2, 0, 0, 0]).num 1 ≤ 61 ∧
      entriesOf [2, 0, 0, 0] = some [plainEntry .const0] ∧
      State.reset.assembler.bank0.length = 61 ∧ State.reset.assembler.bank1.length = 61) ∧
    (Takes 0x12 .a (ask .a 0x12 []) (req .a 0x12 []) ∧ firstFailingCheck State.reset.assembler.shadowBank = none ∧
      firstFailingCheck
        (State.reset.withAssembler { State.reset.assembler with bank1 := [] }).assembler.shadowBank = some 1) ∧
    let s := State.reset.withAssembler { State.reset.assembler with commitPending := true }
    Takes 0x13 .a (ask .a 0x13 [] s) (req .a 0x13 []) ∧ (ask .a 0x13 [] s).assembler.commitPending = true :=
  ⟨⟨takes_ask _ _ _ _ rfl rfl, by decide⟩, ⟨takes_ask _ _ _ _ rfl rfl, by decide⟩, takes_ask _ _ _ _ rfl rfl, by decide⟩

theorem witness_CopyMapCopiesActiveToShadow :
    Takes 0x11 .a (ask .a 0x11 []) (req .a 0x11 []) ∧ permitted (ask .a 0x11 []) .a .maps = true ∧
    (ask .a 0x11 []).assembler.commitPending = false ∧
    let s := State.reset.withAssembler { State.reset.assembler with commitPending := true }
    Takes 0x11 .a (ask .a 0x11 [] s) (req .a 0x11 []) ∧ (ask .a 0x11 [] s).assembler.commitPending = true :=
  ⟨takes_ask _ _ _ _ rfl rfl, by decide, by decide, takes_ask _ _ _ _ rfl rfl, by decide⟩

/-- One entry on the stack, with one minute left. -/
def oneOverride : OverrideEntry := { value := .content false, remaining := some 1, link := .a, mark := false }

theorem witness_OverrideRequestsTakeEffect :
    (Takes 0x14 .a (ask .a 0x14 (60 :: List.replicate 60 3)) (req .a 0x14 (60 :: List.replicate 60 3)) ∧
      permitted (ask .a 0x14 (60 :: List.replicate 60 3)) .a .overrides = true ∧
      symbolsOf (List.replicate 60 3) = some (List.replicate 60 .nil) ∧ hasTestEntry State.reset.stack = false ∧
      State.reset.assembler.test[0]? = some .mark ∧ State.reset.assembler.test[59]? = some .nil) ∧
    (Takes 0x15 .a (ask .a 0x15 [1, 4, 0, 1, 5, 0xA1]) (req .a 0x15 [1, 4, 0, 1, 5, 0xA1]) ∧
      overrideValueOf 1 4 0 = some (.profile 3) ∧ overrideValueOf 0 1 0 = some (.content true) ∧ boolOf 1 = some true ∧
      (ask .a 0x15 [1, 4, 0, 1, 5, 0xA1]).stack.length < 4) ∧
    (Takes 0x16 .a (ask .a 0x16 [] (State.reset.withStack [oneOverride])) (req .a 0x16 []) ∧
      (ask .a 0x16 [] (State.reset.withStack [oneOverride])).stack = oneOverride :: []) ∧
    Takes 0x16 .a (ask .a 0x16 []) (req .a 0x16 []) ∧ (ask .a 0x16 []).stack = [] :=
  ⟨⟨takes_ask _ _ _ _ rfl rfl, by decide⟩, ⟨takes_ask _ _ _ _ rfl rfl, by decide⟩,
    ⟨takes_ask _ _ _ _ rfl rfl, by decide⟩, takes_ask _ _ _ _ rfl rfl, by decide⟩

theorem witness_RemoveOverrideByPosition :
    (Takes 0x17 .a (ask .a 0x17 [4]) (req .a 0x17 [4]) ∧ 3 < (req .a 0x17 [4]).num 0) ∧
    (Takes 0x17 .a (ask .a 0x17 [3]) (req .a 0x17 [3]) ∧ (ask .a 0x17 [3]).stack.length ≤ (req .a 0x17 [3]).num 0) ∧
    let s := State.reset.withStack (List.replicate 4 oneOverride)
    (Takes 0x17 .a (ask .a 0x17 [3] s) (req .a 0x17 [3]) ∧ (req .a 0x17 [3]).num 0 < (ask .a 0x17 [3] s).stack.length) ∧
    Takes 0x17 .a (ask .a 0x17 [0] s) (req .a 0x17 [0]) ∧ (req .a 0x17 [0]).num 0 = 0 :=
  ⟨⟨takes_ask _ _ _ _ rfl rfl, by decide⟩, ⟨takes_ask _ _ _ _ rfl rfl, by decide⟩,
    ⟨takes_ask _ _ _ _ rfl rfl, by decide⟩, takes_ask _ _ _ _ rfl rfl, by decide⟩

/-- WRITE_PROFILE of profile 3 with full level 700 and three equal shapes of a low level. -/
def profileArgs (low : Byte) : List Byte := [3, 2, 0xBC] ++ (List.replicate 3 [0, 100, 0, low, 6, 6]).flatten

theorem witness_ShapeAndSlotRequestsTakeEffect :
    (Takes 0x18 .a (ask .a 0x18 (profileArgs 105)) (req .a 0x18 (profileArgs 105)) ∧
      (req .a 0x18 (profileArgs 105)).num 0 = (3 : Fin 4).val ∧
      profileFault (clampProfile (req .a 0x18 (profileArgs 105)).profile) = none ∧
      profileFault (clampProfile { (req .a 0x18 (profileArgs 105)).profile with full := 105 }) = some 1) ∧
    (Takes 0x19 .a (ask .a 0x19 [0, 99]) (req .a 0x19 [0, 99]) ∧ permitted (ask .a 0x19 [0, 99]) .a .carrier = true) ∧
    Takes 0x1A .a (ask .a 0x1A [58]) (req .a 0x1A [58]) ∧ permitted (ask .a 0x1A [58]) .a .code = true :=
  ⟨⟨takes_ask _ _ _ _ rfl rfl, by decide⟩, ⟨takes_ask _ _ _ _ rfl rfl, by decide⟩, takes_ask _ _ _ _ rfl rfl, by decide⟩

theorem witness_WriteLinesReplacesSettings :
    let args : List Byte := [1, 1, 0, 0, 1, 1, 3, 16]
    let out := withLine .l0 fun ln => { ln with dirOut := true }
    let routed := withLine .l6 fun ln => { ln with enables := 2 }
    (Takes 0x1B .a (ask .a 0x1B args) (req .a 0x1B args) ∧ permitted (ask .a 0x1B args) .a .lines = true ∧
      lineOf 1 = some .l1 ∧ (req .a 0x1B args).lineSettings .l1 = some
        { enables := 1, dirOut := false, level := false, invert := true, pull := .up, edge := .both, filter := 15 }) ∧
    (Takes 0x1B .a (ask .a 0x1B [0, 0, 0, 0, 0, 0, 0, 0] out) (req .a 0x1B [0, 0, 0, 0, 0, 0, 0, 0]) ∧
      isOutput out .l0 = true) ∧
    (Takes 0x1B .a (ask .a 0x1B [0, 0, 0, 0, 0, 0, 0, 0]) (req .a 0x1B [0, 0, 0, 0, 0, 0, 0, 0]) ∧
      isOutput (ask .a 0x1B [0, 0, 0, 0, 0, 0, 0, 0]) .l0 = false) ∧
    (Takes 0x1B .a (ask .a 0x1B [6, 2, 0, 0, 1, 0, 1, 0] routed) (req .a 0x1B [6, 2, 0, 0, 1, 0, 1, 0]) ∧
      isOutput routed .l6 = false ∧ routedL6 routed = true ∧
      (req .a 0x1B [6, 2, 0, 0, 1, 0, 1, 0]).lineSettings .l6 = some
        { enables := 2, dirOut := false, level := false, invert := true, pull := .none, edge := .rising, filter := 0 } ∧
      ((routed.line .l6).invert ^^ true) = true ∧ ((routed.line .l6).filtered ^^ true) = true) ∧
    Takes 0x1B .a (ask .a 0x1B [8, 1, 0xF5, 61, 0, 0, 0, 0]) (req .a 0x1B [8, 1, 0xF5, 61, 0, 0, 0, 0]) ∧
      (req .a 0x1B [8, 1, 0xF5, 61, 0, 0, 0, 0]).num2 1 = 501 :=
  ⟨⟨takes_ask _ _ _ _ rfl rfl, by decide⟩, ⟨takes_ask _ _ _ _ rfl rfl, by decide⟩,
    ⟨takes_ask _ _ _ _ rfl rfl, by decide⟩, ⟨takes_ask _ _ _ _ rfl rfl, by decide⟩, takes_ask _ _ _ _ rfl rfl, by decide⟩

/-! ### Reads -/

theorem witness_ReadsReturnTheImages :
    (Takes 0x20 .b (ask .b 0x20 [0, 246, 3]) (req .b 0x20 [0, 246, 3]) ∧
      bankSelected 3 (ask .b 0x20 [0, 246, 3]).assembler = some true ∧ (req .b 0x20 [0, 246, 3]).num2 0 = 246 ∧
      State.reset.assembler.bank0.length = 61 ∧ State.reset.assembler.bank1.length = 61) ∧
    (Takes 0x21 .b (ask .b 0x21 [0, 0, 3]) (req .b 0x21 [0, 0, 3]) ∧ (req .b 0x21 [0, 0, 3]).num 2 = (3 : Fin 4).val) ∧
    Takes 0x22 .b (ask .b 0x22 [0, 8]) (req .b 0x22 [0, 8]) ∧ Takes 0x23 .b (ask .b 0x23 [0, 1]) (req .b 0x23 [0, 1]) ∧
    Takes 0x24 .b (ask .b 0x24 [0, 91]) (req .b 0x24 [0, 91]) ∧
    Takes 0x25 .b (ask .b 0x25 [0, 52]) (req .b 0x25 [0, 52]) ∧ (listsImage State.reset.rules).length = 8 ∧
    (stackImage State.reset.stack).length = 1 :=
  ⟨⟨takes_ask _ _ _ _ rfl rfl, by decide⟩, ⟨takes_ask _ _ _ _ rfl rfl, by decide⟩, takes_ask _ _ _ _ rfl rfl,
    takes_ask _ _ _ _ rfl rfl, takes_ask _ _ _ _ rfl rfl, takes_ask _ _ _ _ rfl rfl, by decide⟩

theorem witness_ReadStatusCapturesThenClears :
    (Takes 0x26 .b (ask .b 0x26 [0, 64, 1]) (req .b 0x26 [0, 64, 1]) ∧ boolOf 1 = some true ∧
      (req .b 0x26 [0, 64, 1]).num2 0 = 64) ∧
    Takes 0x26 .b (ask .b 0x26 [0, 0, 0]) (req .b 0x26 [0, 0, 0]) ∧ boolOf 0 = some false :=
  ⟨⟨takes_ask _ _ _ _ rfl rfl, by decide⟩, takes_ask _ _ _ _ rfl rfl, by decide⟩

/-! ### The keying step and the boundary -/

theorem witness_KeyingStepAdvances :
    Quiet State.reset ∧ State.reset.timebase.m ≠ 999 ∧ Quiet (latched .a 0 999 State.reset) ∧
    isOutput State.reset .l0 = false ∧ isOutput (withLine .l0 fun ln => { ln with dirOut := true }) .l0 = true := by decide

/-- A wrap is due. -/
def atWrap (s : State) : State := s.withTimebase { s.timebase with m := 0, wrapDue := true }

theorem witness_WrapMakesTheBoundary :
    let word (lastSlot : Nat) : State := State.reset.withAssembler
      { State.reset.assembler with current := some { word := shortWord 0, lastSlot := lastSlot } }
    let pending (b : Int) (u : Nat) : State :=
      (atWrap (running u)).withTimeScale { (running u).timeScale with pendingBalance := some b }
    ((∀ k ∈ [58, 59], (word k).assembler.current = some { word := shortWord 0, lastSlot := k }) ∧
      59 + 1 = (shortWord 0).length ∧ ¬58 + 1 = (shortWord 0).length ∧ (labelAt 60 60).mark = .none ∧
      (labelAt 60 60).second = 0 ∧ (labelAt 61 61).second ≠ 0 ∧ (splitLabel 60 60 .step).mark ≠ .none) ∧
    ((atWrap State.reset).timebase.wrapDue = true ∧ AloneInStep .lineL6 (atWrap State.reset) ∧
      (atWrap State.reset).lineUnit.l6Pulse = false ∧ (atWrap State.reset).timebase.count = none) ∧
    (∀ u ∈ [3155759998, 59], (atWrap (running u)).timebase.wrapDue = true ∧ AloneInStep .lineL6 (atWrap (running u)) ∧
      (atWrap (running u)).timebase.count = some u ∧ (atWrap (running u)).rules.leaps = [] ∧
      (atWrap (running u)).timeScale.pendingBalance = none ∧ (atWrap (running u)).timeScale.balance = 0 ∧
      u + 1 < 3155760000 ∧ (atWrap (running u)).assembler.assembly = none) ∧
    (∀ p ∈ [((1 : Int), 0), (-1, 3155759997)], AloneInStep .lineL6 (pending p.1 p.2) ∧
      (pending p.1 p.2).timebase.count = some p.2 ∧ (pending p.1 p.2).rules.leaps = [] ∧
      0 ≤ (p.2 : Int) + 1 - (pending p.1 p.2).timeScale.sumBase ∧
      (p.2 : Int) + 1 - (pending p.1 p.2).timeScale.sumBase ≤ 3155759999 ∧
      (pending p.1 p.2).timeScale.sumBase ≠ (pending p.1 p.2).timeScale.balance) ∧
    (0 : Int) + 1 - (pending 2 0).timeScale.sumBase < 0 ∧
    (3155759999 : Int) < (3155759999 : Nat) + 1 - (running 3155759999).timeScale.sumBase := by decide

theorem witness_LeapSecondsAreLabelled :
    (∀ d ∈ [0, 36524], d ≤ 36524 ∧ (∀ e ∈ ([] : List LeapEntry), d < e.day) ∧
      ((86400 * (d + 1) : Nat) : Int) - 0 = 86400 * ((d : Int) + 1) ∧
      ((86400 * (d + 1) - 2 : Nat) : Int) + 1 - 0 = 86400 * ((d : Int) + 1) - 1) ∧
    (∀ e ∈ [({ day := 1, insert := false } : LeapEntry)], 0 < e.day) := by decide

theorem witness_CalendarIsExact : (-1 : Int) ≤ -1 ∧ (36525 : Int) ≤ 36525 := by decide

theorem witness_WeightsSpellTheFields : (1 ≤ (1 : Nat) ∧ (52596000 : Nat) ≤ 52596000) ∧ (-48 : Int) ≤ -48 ∧ (56 : Int) ≤ 56 := by
  decide

theorem witness_AnnouncementsAndHints :
    listed.rules.transitions.Pairwise (·.minute < ·.minute) ∧ listed.rules.leaps.head? = some { day := 5, insert := true } ∧
    frameDay listed.rules.leaps (86400 * 6) = 5 ∧ frameDay listed.rules.leaps (86400 * 6 + 1) = 6 ∧
    ¬(listed.rules.lastMismatch = some 6) := by decide

/-- A view from which a CODED word is built. -/
def someView : View := takeView (labelAt 112 112) State.reset

theorem witness_AssemblyTakesAndBuildsTheView :
    (startAssembly (labelAt 112 112) State.reset).assembler.assembly = some someView ∧
    (∀ e ∈ State.reset.rules.leaps, 1440 * e.day + 1439 ≠ someView.transmitted) ∧ someView.due = [] ∧
    (∀ u ∈ [112, 3155759992 - 60], (labelAt u u).u / 60 ≠ 52595999 ∧
      (labelAt u u).second = if (labelAt u u).second = 0 then State.reset.assembler.slotSetting
        else State.reset.assembler.slotInForce) ∧
    (labelAt 3155759992 3155759992).u / 60 = 52595999 ∧ (labelAt 111 111).second ≠ 0 ∧
    (labelAt 111 111).second ≠ State.reset.assembler.slotInForce := by
  refine ⟨rfl, by decide, by decide, by decide, by decide, by decide, by decide⟩

theorem witness_WordsKeepLengthAndParity :
    let testView (n : Nat) : View := { someView with content := .test, length := n }
    (someView.Sound ∧ (buildWord someView).kind = .coded) ∧
    (∀ n ∈ [59, 60, 61], MinuteLength (testView n).length ∧ TestOnAir (testView n).test ∧
      (buildWord (testView n)).kind = .test) ∧
    (∀ k ∈ [MapKind.const0, .const1, .field, .flag, .parity, .mark, .nil],
      (carriedEntries (factoryMap.set 1 (plainEntry .const1) |>.set 2 (plainEntry .const0)) 60).any (·.kind == k) = true) := by
  refine ⟨⟨⟨⟨?_, ?_⟩, ?_, ?_⟩, ?_⟩, ?_, ?_⟩ <;> decide

theorem witness_OverridesMergeAndExpire : ∀ e ∈ [oneOverride], e.mark = false ∧ e.Sound := by
  intro e he
  rw [List.mem_singleton] at he
  subst he
  exact ⟨rfl, by simp [OverrideEntry.Sound, oneOverride]⟩

/-! ### Pulses and sources -/

theorem witness_SecondsAreJudged : State.reset.timebase.settings.InRange := by decide

theorem witness_PulsesJudgeTheirSource :
    let hunting (good : Nat) (last : Option (Nat × Int)) : State :=
      State.reset.setMonitor .a { State.reset.monitor .a with good := good, last := last }
    let judged (s : State) : Judgement :=
      judgePulse s.timebase.settings s.timeScale.balance (s.monitor .a) (s.link .a).latch (pulseOffset s.timebase.m)
    (State.reset.monitor .a).state ≠ .down ∧ PulseOn .a .ppsA State.reset ∧ State.reset.timebase.wrapDue = false ∧
    pulseWaits State.reset = false ∧ judged State.reset = .bad ∧ judged (latched .a 100 437 State.reset) = .starting ∧
    (∀ good ∈ [0, 8], judged (latched .a 101 439 (hunting good (some (100, 437)))) = .good ∧
      good + 1 < (hunting good none).timebase.settings.qualify) ∧
    judged (latched .a 101 439 (hunting 9 (some (100, 437)))) = .good ∧
    (hunting 9 none).timebase.settings.qualify ≤ 9 + 1 ∧ (hunting 9 none).timebase.active = none ∧
    ((State.reset.setMonitor .b { State.reset.monitor .b with missDue := true }).monitor .b).missDue = true := by decide

theorem witness_ActivePulsesSteer :
    let at_ (m count : Nat) : State := latched .a count m (running 3600)
    let judged (s : State) : Judgement :=
      judgePulse s.timebase.settings s.timeScale.balance (s.monitor .a) (s.link .a).latch (pulseOffset s.timebase.m)
    PulseOn .a .ppsA (running 3600) ∧ pulseWaits (running 3600) = false ∧ ((running 3600).monitor .a).state = .active ∧
    (∀ m ∈ [2, 0, 998], judged (at_ m 3601) = .good) ∧ 0 < pulseOffset 2 ∧ pulseOffset 0 = 0 ∧ pulseOffset 998 < 0 ∧
    (running 3600).timebase.wrapDue = false ∧ (atWrap (running 3600)).timebase.wrapDue = true ∧
    AloneInStep .ppsA (atWrap (at_ 0 3601)) ∧ judged (atWrap (at_ 0 3601)) = .good := by decide

theorem witness_SourcesAreAdopted :
    let ready (e : Int) (s : State) : State :=
      s.setMonitor .b
        { state := .qualified, good := 10, last := some (3600, e), timer := some 0, missed := 0, missDue := false,
          waiting := false }
    let judged (s : State) : Judgement :=
      judgePulse s.timebase.settings s.timeScale.balance (s.monitor .b) (s.link .b).latch (pulseOffset s.timebase.m)
    let alone (s : State) : State :=
      (s.setMonitor .a (State.reset.monitor .a)).withTimebase
        { s.timebase with active := none, monitors := s.timebase.monitors.set .a (State.reset.monitor .a) }
    let prefersB (s : State) : State :=
      s.withTimebase { s.timebase with settings := { s.timebase.settings with preferred := .b } }
    let late := latched .b 3601 2 (ready 2 (running 3601))
    let onTime := atWrap (latched .b 3601 0 (ready 0 (running 3600)))
    let early := latched .b 3601 998 (ready (-2) (running 3600))
    let taken := latched .b 3601 0 (ready 0 (running 3601))
    let stepping := latched .b 3601 2 (ready 2 (running 4000))
    (PulseOn .b .ppsB State.reset ∧ pulseWaits State.reset = false ∧ PulseOn .b .ppsB onTime ∧ pulseWaits onTime = false ∧
      AloneInStep .ppsB onTime ∧ onTime.timebase.m = 0 ∧ onTime.timebase.wrapDue = true) ∧
    (judged (latched .b 3601 2 (ready 2 State.reset)) = .good ∧ (ready 2 State.reset).timebase.count = none ∧
      (ready 2 State.reset).timebase.active = none) ∧
    (judged (alone stepping) = .good ∧ (alone stepping).timebase.active = none ∧
      (alone stepping).timebase.count = some 4000 ∧ agrees (alone stepping) (frameOf 3601) 2 = false) ∧
    (∀ x ∈ [(late, (2 : Int)), (onTime, 0), (early, -2), (taken, 0)],
      judged (alone x.1) = .good ∧ agrees (alone x.1) (frameOf 3601) x.2 = true ∧
        pulseOffset x.1.timebase.m = x.2 ∧ judged x.1 = .good ∧ x.1.timebase.active = some Link.b.other ∧
        (x.1.monitor .a).state = .active ∧ x.1.timebase.settings.revertive = true ∧
        x.1.timebase.settings.preferred ≠ .b ∧ (prefersB x.1).timebase.settings.preferred = .b ∧
        (prefersB x.1).timebase.settings.revertive = true ∧ judged (prefersB x.1) = .good) ∧
    stepping.timebase.active = some Link.b.other ∧ judged stepping = .good := by decide

/-! ### Slots, code, ramps and lines -/

theorem witness_SlotsStartFromTheCode :
    let onAir : State :=
      (carrierIn .steady .running).withAssembler
        { State.reset.assembler with current := some { word := shortWord 0, lastSlot := 0 } }
    let held := withLine .l0 (fun ln => { ln with enables := 1, filtered := true }) onAir
    (onAir.carrier.code = .running ∧ onAir.assembler.current.isSome = true ∧ txHoldAsserted onAir = false) ∧
    txHoldAsserted held = true ∧ offeredSymbol (some (labelAt 1 1)) held.assembler ≠ .nil ∧
    offeredSymbol (some (labelAt 59 59)) held.assembler = .nil ∧
    (∀ c ∈ [CodeState.off, .armed, .running, .ending], (carrierIn .steady c).carrier.code = c) ∧
    (carrierIn .steady .armed).carrier.justSteady = false ∧
    (completeRising (State.reset.withCarrier
      { State.reset.carrier with state := .rising, rampEnd := true, code := .armed })).carrier.justSteady = true ∧
    (labelAt 60 60).second = 0 ∧ (labelAt 59 59).second ≠ 0 ∧ (labelAt 59 59).mark = .none := by decide

theorem witness_RampsRunTheirLength :
    let c (state : CarrierState) (k : Nat) : Carrier := { State.reset.carrier with state := state, k := k, rc := 100 }
    (1 ≤ (c .rising 0).rc ∧ (c .rising 0).k + 100 ≤ (c .rising 0).rc ∧ 100 ≤ (c .falling 100).k) ∧
    ∀ st ∈ [CarrierState.rising, .falling],
      let s := State.reset.withCarrier { State.reset.carrier with state := st, code := .armed, rampEnd := true }
      s.timebase.wrapDue = false ∧ s.carrier.rampEnd = true ∧ s.carrier.state = st ∧ s.carrier.code = .armed := by decide

theorem witness_HaltTakesTheCarrierDown :
    let s (st : CarrierState) (c : CodeState) : State :=
      withLine .l1 (fun ln => { ln with enables := 1, filterDue := true }) (carrierIn st c)
    (∀ st ∈ [CarrierState.off, .rising, .steady, .falling],
      ((s st .off).line .l1).filterDue = true ∧ ((s st .off).line .l1).enables.getLsbD 0 = true ∧
        ((s st .off).line .l1).filtered = ((s st .off).line .l1).invert ∧ (s st .off).carrier.state = st) ∧
    ((s .steady .running).carrier.code = .running ∧ 1 ≤ (s .steady .off).carrier.rampSetting ∧
      1 ≤ fullInForce (s .steady .off)) ∧
    let args : List Byte := [1, 1, 0, 0, 1, 0, 0, 0]
    let w := ask .a 0x1B args (carrierIn .steady .running)
    Takes 0x1B .a w (req .a 0x1B args) ∧ permitted w .a .lines = true ∧ haltAsserted w = false ∧
    (req .a 0x1B args).lineSettings .l1 = some
      { enables := 1, dirOut := false, level := false, invert := true, pull := .none, edge := .none, filter := 0 } ∧
    ((w.line .l1).filtered ^^ true) = true :=
  ⟨by decide, by decide, takes_ask _ _ _ _ rfl rfl, by decide⟩

theorem witness_LineEventsTakeEffect :
    let due := withLine .l6 fun ln => { ln with enables := 2, filterDue := true, edge := .both }
    let handed (s : State) : State := s.withLineUnit { s.lineUnit with l6Pulse := true }
    let wrapping := atWrap (handed (running 3600))
    let sealed := sealStep State.reset
    let waits := State.reset.setMonitor .a { State.reset.monitor .a with waiting := true }
    (due.line .l6).filterDue = true ∧ isOutput due .l6 = false ∧ routedL6 due = true ∧
    ((handed State.reset).lineUnit.l6Pulse = true ∧ (handed State.reset).timebase.wrapDue = false ∧
      wrapping.lineUnit.l6Pulse = true ∧ wrapping.timebase.wrapDue = true ∧ (wrapping.monitor .b).state ≠ .down ∧
      (wrapping.line .l6).filterDue = false ∧ (pulseSource .lineL6 wrapping).isSome = true) ∧
    (PulseOn .b .ppsB sealed ∧ (sealed.monitor .b).state ≠ .down ∧ pulseWaits sealed = true ∧
      sealed.timebase.wrapDue = false) ∧
    ((waits.monitor .a).waiting = true ∧ Quiet (waits.setMonitor .a { waits.monitor .a with waiting := false })) ∧
    ∀ k ∈ [Strobe.minute, .slot, .second],
      (State.reset.lineUnit.strobes.set k (some 0)).get k = some 0 := by decide

/-! ### Invariants and rules over all commands -/

/-- A state one command away from its next: a keying step waits. -/
def start : State := State.reset.withPending [.keyingStep { driven := 0, level := 0 }]

theorem start_steps : ∃ t, step start = .next t ∧ t.timebase.m = 1 := ⟨_, rfl, by decide⟩

theorem witness_StepKeepsReferences : ReferenceSound start ∧ ∃ t, step start = .next t := by
  have source : ∀ l, SourceSound start l := fun l => by
    cases l <;> refine ⟨?_, ?_, ?_, ?_⟩ <;> decide
  exact ⟨⟨source .a, source .b, by decide, by decide, by decide, by decide⟩, _, rfl⟩

theorem witness_StepKeepsTimeAndCivilState : TimeSound start ∧ CivilSound start ∧ ∃ t, step start = .next t :=
  ⟨by decide, by decide, _, rfl⟩

theorem witness_StepKeepsWords : WordsSound start ∧ ∃ t, step start = .next t := by
  refine ⟨⟨?_, ?_, ?_, ?_, ?_, ?_, ?_, ?_, ?_, ?_, ?_, ?_, ?_, ?_, ?_⟩, _, rfl⟩ <;> decide

theorem witness_StepKeepsWordsInTheirMinute : MinuteSound start ∧ ∃ t, step start = .next t := ⟨by decide, _, rfl⟩

theorem witness_StepKeepsEnvelopeAndSlot : EnvelopeSound start ∧ SlotSound start ∧ ∃ t, step start = .next t := by
  refine ⟨⟨?_, ?_, ?_, ?_, ?_, ?_, ?_, ?_, ?_, ?_, ?_, ?_, ?_, ?_⟩, by decide, _, rfl⟩ <;> decide

theorem witness_StepKeepsTheCarrier : CarrierSound start ∧ ∃ t, step start = .next t := ⟨by decide, _, rfl⟩

theorem witness_StepKeepsTheExecutor : ExecutorSound start ∧ ∃ t, step start = .next t := ⟨by decide, _, rfl⟩

theorem witness_StepKeepsLinesAndCounters : LinesSound start ∧ CountersSound start ∧ ∃ t, step start = .next t := by
  refine ⟨⟨?_, ?_, ?_, ?_, ?_, ?_, ?_⟩, by decide, _, rfl⟩ <;> decide

theorem witness_PrivilegeAndActiveBankAreKept :
    exec (.copyMap .a) (ask .a 0x11 []) = .next (after (.copyMap .a) (ask .a 0x11 [])) ∧
      (∀ pins, Instr.copyMap .a ≠ .powerOnReset pins) := ⟨rfl, fun _ h => by cases h⟩

theorem witness_UngrantedLinkChangesNothing :
    State.reset.executor.permissions = 0 ∧ Link.b ≠ State.reset.executor.privileged ∧
      exec (.setRamp .b) (ask .b 0x19 [0, 99]) = .next (after (.setRamp .b) (ask .b 0x19 [0, 99])) :=
  ⟨rfl, by decide, rfl⟩

end Sys2Proof.Tests
end

/-! PROOFS. The commands of requests as rows of the request-name list: every command with a source link is a row of the list, a
row of CONTROL or UNKNOWN_REQUEST, and a row's command is the take of its name by its handler (R26, R27; log 4). -/

namespace Sys2Proof.Machine

/-- A row's command is the take of its name by its handler. -/
theorem exec_row {src : Link} {pins : PinIn} {wire : WireIn} {row : RequestRow} (h : row ∈ requestRows src pins wire)
    (s : State) : exec row.command s = .next (takeNamed row.name row.handler src s) := by
  revert row
  simp only [requestRows, List.forall_mem_cons, List.not_mem_nil, IsEmpty.forall_iff, implies_true, and_true]
  and_intros
  all_goals rfl

/-- Each of the six CONTROL commands is the take of a CONTROL by some row (log 4). -/
theorem exec_control {c : Instr} {src : Link} (h : c ∈ controlCommands src) :
    ∃ row, ∀ s, exec c s = .next (takeControl row src s) := by
  revert c
  simp only [controlCommands, List.forall_mem_cons, List.not_mem_nil, IsEmpty.forall_iff, implies_true, and_true]
  and_intros
  all_goals exact ⟨_, fun _ => rfl⟩

/-- The commands with a source link (R26). -/
theorem sourceOf_cases {c : Instr} {src : Link} (h : sourceOf c = some src) :
    (∃ pins wire, ∃ row ∈ requestRows src pins wire, row.command = c) ∨ c ∈ controlCommands src ∨
      c = .unknownRequest src := by
  have pins : PinIn := { driven := 0, level := 0 }
  have wire : WireIn := { underWay := false, begun := 0 }
  cases c <;> simp only [sourceOf, Option.some.injEq, reduceCtorEq] at h <;> subst h
  case setLink x | disableLink x | enableLink x =>
    exact .inl ⟨pins, x.wire, by
      simp only [requestRows, List.mem_cons, exists_eq_or_imp, reduceCtorEq, false_or, true_or]⟩
  case writeLines src p =>
    exact .inl ⟨p, wire, by
      simp only [requestRows, List.mem_cons, exists_eq_or_imp, reduceCtorEq, false_or, true_or]⟩
  case unknownRequest => exact .inr (.inr rfl)
  case controlCarrierOn | controlCarrierOff | controlCodeOn | controlCodeOff | controlProfileSelect | controlSpare =>
    exact .inr (.inl (by simp [controlCommands]))
  all_goals
    exact .inl ⟨pins, wire, by
      simp only [requestRows, List.mem_cons, exists_eq_or_imp, reduceCtorEq, false_or, true_or]⟩

end Sys2Proof.Machine

/-! PROOFS. The promises of the links, monitors and active source (O50), block by block: what of them is about a link and what
about the timebase, and what each operation of the timebase does to its share (R43 to R60). -/

namespace Sys2Proof.Machine

/-! ### The timebase's share of the promises -/

/-- Monitors, active source and settings agree with each other and with the enabled links; a source may be active before its time
is valid, as within an adoption (R50, R52). -/
structure Timebase.Consistent (enabled : Link → Bool) (tb : Timebase) : Prop where
  monitors : ∀ x, (tb.monitors.get x).Sound
  down : ∀ x, enabled x = false ↔ (tb.monitors.get x).state = .down
  active : ∀ x, tb.active = some x ↔ (tb.monitors.get x).state = .active
  settings : tb.settings.InRange
  position : tb.m < 1000
  holdover : tb.active.isSome = true → tb.holdover = 0
  holdoverMax : tb.holdover ≤ Config.holdoverMax

/-- A consistent timebase whose active source has valid time (R47, R52). -/
structure Timebase.Sound (enabled : Link → Bool) (tb : Timebase) : Prop extends tb.Consistent enabled where
  valid : tb.active.isSome = true → tb.count.isSome = true

/-- Which links are ENABLED. -/
abbrev State.enabledLinks (s : State) (l : Link) : Bool := (s.link l).enabled

theorem referenceSound_iff (s : State) :
    ReferenceSound s ↔ (∀ l, (s.link l).Sound) ∧ s.timebase.Sound s.enabledLinks := by
  constructor
  · rintro ⟨⟨la, ma, da, aa⟩, ⟨lb, mb, db, ab⟩, hset, hm, hact, hmax⟩
    exact ⟨Link.rec la lb, ⟨Link.rec ma mb, Link.rec da db, Link.rec aa ab, hset, hm, fun h => (hact h).2, hmax⟩,
      fun h => (hact h).1⟩
  · rintro ⟨hl, htb⟩
    have source (x : Link) : SourceSound s x := ⟨hl x, htb.monitors x, htb.down x, htb.active x⟩
    exact ⟨source .a, source .b, htb.settings, htb.position, fun h => ⟨htb.valid h, htb.holdover h⟩, htb.holdoverMax⟩

theorem ReferenceSound.link {s : State} (h : ReferenceSound s) (l : Link) : (s.link l).Sound :=
  ((referenceSound_iff s).1 h).1 l

theorem ReferenceSound.timebase {s : State} (h : ReferenceSound s) : s.timebase.Sound s.enabledLinks :=
  ((referenceSound_iff s).1 h).2

/-- The promises are about the links and the timebase alone. -/
theorem ReferenceSound.congr {s t : State} (h : ReferenceSound s) (hl : t.links = s.links)
    (ht : t.timebase = s.timebase) : ReferenceSound t := by
  have hlink (l : Link) : t.link l = s.link l := by rw [State.link, hl]; rfl
  have hen : t.enabledLinks = s.enabledLinks := funext fun l => by rw [State.enabledLinks, hlink]
  rw [referenceSound_iff, ht, hen]
  exact ⟨fun l => hlink l ▸ h.link l, h.timebase⟩

/-- What changes the timebase alone keeps the promises when it keeps the timebase's share. -/
theorem ReferenceSound.of_timebase {s t : State} (h : ReferenceSound s) (hl : t.links = s.links)
    (ht : t.timebase.Sound s.enabledLinks) : ReferenceSound t := by
  have hlink (l : Link) : t.link l = s.link l := by rw [State.link, hl]; rfl
  have hen : t.enabledLinks = s.enabledLinks := funext fun l => by rw [State.enabledLinks, hlink]
  rw [referenceSound_iff, hen]
  exact ⟨fun l => hlink l ▸ h.link l, ht⟩

/-- What changes one link alone, and not whether it is ENABLED, keeps the promises when it keeps the link's. -/
theorem ReferenceSound.of_link {s t : State} {l : Link} (h : ReferenceSound s)
    (hother : t.link l.other = s.link l.other) (ht : t.timebase = s.timebase) (hs : (t.link l).Sound)
    (he : (t.link l).enabled = (s.link l).enabled) : ReferenceSound t := by
  have hen : t.enabledLinks = s.enabledLinks := funext fun k => by
    rcases Link.eq_or_eq_other l k with rfl | rfl
    · exact he
    · rw [State.enabledLinks, hother]
  rw [referenceSound_iff, ht, hen]
  refine ⟨fun k => ?_, h.timebase⟩
  rcases Link.eq_or_eq_other l k with rfl | rfl
  · exact hs
  · exact hother ▸ h.link _

theorem ReferenceSound.setLink {s : State} (h : ReferenceSound s) {l : Link} {ls : LinkState} (hs : ls.Sound)
    (he : ls.enabled = (s.link l).enabled) : ReferenceSound (s.setLink l ls) :=
  h.of_link (l := l) (by simp) rfl (by rwa [State.link_setLink_same]) (by rwa [State.link_setLink_same])

/-- On an ENABLED link nothing is to be shown of the meaning of DISABLED. -/
theorem LinkState.Sound.of_enabled {ls : LinkState} (he : ls.enabled = true) (hrx : ls.rx.sound = true)
    (hqueue : ls.queue.length ≤ 4) (hset : ls.settings.InRange) : ls.Sound :=
  ⟨hrx, hqueue, hset, fun hd => by rw [he] at hd; cases hd⟩

/-- A source whose monitor is not DOWN has its link ENABLED (R43). -/
theorem ReferenceSound.enabled_of_monitor {s : State} (h : ReferenceSound s) {x : Link}
    (hd : (s.monitor x).state ≠ .down) : (s.link x).enabled = true :=
  Bool.eq_true_of_not_eq_false fun he => hd ((h.timebase.down x).1 he)

/-! ### Changes of a monitor -/

section

variable {enabled : Link → Bool} {tb : Timebase}

/-- One source's monitor replaced, and with it perhaps the active source and whether its link is ENABLED: the new monitor agrees
with both, and the other source is not concerned. -/
theorem Timebase.Consistent.replace (h : tb.Consistent enabled) {enabled' : Link → Bool} {x : Link} {mon : Monitor}
    {active : Option Link} (hs : mon.Sound) (hd : enabled' x = false ↔ mon.state = .down)
    (ha : active = some x ↔ mon.state = .active) (hen : enabled' x.other = enabled x.other)
    (hact : active = some x.other ↔ tb.active = some x.other) (hh : active.isSome = true → tb.holdover = 0) :
    ({ tb with monitors := tb.monitors.set x mon, active := active } : Timebase).Consistent enabled' := by
  have cases {P : Link → Prop} (hx : P x) (ho : P x.other) (y : Link) : P y :=
    (Link.eq_or_eq_other x y).elim (· ▸ hx) (· ▸ ho)
  refine ⟨cases ?_ ?_, cases ?_ ?_, cases ?_ ?_, h.settings, h.position, hh, h.holdoverMax⟩
  all_goals simp only [PerLink.get_set_same, PerLink.get_set_other]
  · exact hs
  · exact h.monitors _
  · exact hd
  · exact hen ▸ h.down _
  · exact ha
  · exact hact.trans (h.active _)

/-- A monitor replaced by a sound one that is DOWN and ACTIVE just when the old one was. -/
theorem Timebase.Consistent.setMonitor (h : tb.Consistent enabled) {x : Link} {mon : Monitor} (hs : mon.Sound)
    (hd : mon.state = .down ↔ (tb.monitors.get x).state = .down)
    (ha : mon.state = .active ↔ (tb.monitors.get x).state = .active) :
    ({ tb with monitors := tb.monitors.set x mon } : Timebase).Consistent enabled :=
  h.replace hs ((h.down x).trans hd.symm) ((h.active x).trans ha.symm) rfl Iff.rfl h.holdover

theorem Timebase.Sound.setMonitor (h : tb.Sound enabled) {x : Link} {mon : Monitor} (hs : mon.Sound)
    (hd : mon.state = .down ↔ (tb.monitors.get x).state = .down)
    (ha : mon.state = .active ↔ (tb.monitors.get x).state = .active) :
    ({ tb with monitors := tb.monitors.set x mon } : Timebase).Sound enabled :=
  ⟨h.toConsistent.setMonitor hs hd ha, h.valid⟩

theorem ReferenceSound.setMonitor {s : State} (h : ReferenceSound s) {x : Link} {mon : Monitor} (hs : mon.Sound)
    (he : mon.state = (s.monitor x).state) : ReferenceSound (s.setMonitor x mon) :=
  have hstate : mon.state = (s.timebase.monitors.get x).state := he
  h.of_timebase rfl (h.timebase.setMonitor hs (by rw [hstate]) (by rw [hstate]))

/-- The holdover seconds are cleared (R56). -/
theorem Timebase.Consistent.clearHoldover (h : tb.Consistent enabled) :
    ({ tb with holdover := 0 } : Timebase).Consistent enabled :=
  ⟨h.monitors, h.down, h.active, h.settings, h.position, fun _ => rfl, Nat.zero_le _⟩

/-- The flywheel position is moved within the second. -/
theorem Timebase.Consistent.setPosition (h : tb.Consistent enabled) {m : Nat} (hm : m < 1000) :
    ({ tb with m := m } : Timebase).Consistent enabled :=
  ⟨h.monitors, h.down, h.active, h.settings, hm, h.holdover, h.holdoverMax⟩

end

/-! ### The second boundary (R41, R56, R58) -/

theorem Monitor.Sound.afterSpanExit {mon : Monitor} (h : mon.Sound) : mon.afterSpanExit.Sound := by
  obtain ⟨hgood, hlast, hnone, hqual, hdown⟩ := h
  unfold Monitor.afterSpanExit
  split
  · next ha => exact ⟨hgood, hlast, hnone, fun _ => hqual (.inr ha), fun hd => by simp at hd⟩
  · exact ⟨hgood, hlast, hnone, hqual, hdown⟩

theorem Monitor.afterSpanExit_state (mon : Monitor) :
    (mon.afterSpanExit.state = .down ↔ mon.state = .down) ∧ mon.afterSpanExit.state ≠ .active := by
  unfold Monitor.afterSpanExit
  split
  · next ha => simp [ha]
  · next ha => exact ⟨Iff.rfl, ha⟩

/-- A boundary makes an active source's time valid, or leaves no source active (R41, R52, R58). -/
theorem Timebase.Consistent.atBoundary {enabled : Link → Bool} {tb : Timebase} (h : tb.Consistent enabled)
    (label : Option Label) : (tb.atBoundary label).Sound enabled := by
  cases label with
  | some lab =>
    refine ⟨⟨h.monitors, h.down, h.active, h.settings, h.position, fun ha => ?_, ?_⟩, fun _ => rfl⟩
    · have ha' : tb.active.isNone = false := by simpa [Timebase.atBoundary] using ha
      simpa [Timebase.atBoundary, ha'] using h.holdover (by simpa using ha')
    · have := h.holdoverMax
      simp only [Timebase.atBoundary]
      split
      · exact Nat.min_le_left _ _
      · exact this
  | none =>
    have hget (x : Link) : ((tb.atBoundary none).monitors.get x) = (tb.monitors.get x).afterSpanExit := by
      cases x <;> rfl
    refine ⟨⟨fun x => ?_, fun x => ?_, fun x => ?_, h.settings, h.position, fun ha => ?_, h.holdoverMax⟩, fun ha => ?_⟩
    · rw [hget]; exact (h.monitors x).afterSpanExit
    · rw [hget, h.down x, (Monitor.afterSpanExit_state _).1]
    · rw [hget]
      exact ⟨fun ha => absurd ha (by simp [Timebase.atBoundary]),
        fun ha => absurd ha (Monitor.afterSpanExit_state _).2⟩
    · exact absurd ha (by simp [Timebase.atBoundary])
    · exact absurd ha (by simp [Timebase.atBoundary])

theorem secondBoundary_timebase_sound {enabled : Link → Bool} {s : State} (h : s.timebase.Consistent enabled)
    (cause : BoundaryCause) : (secondBoundary cause s).timebase.Sound enabled :=
  (secondBoundary_spec cause s).2.1 ▸ h.atBoundary _

theorem takeWrap_timebase_sound {enabled : Link → Bool} {s : State} (h : s.timebase.Sound enabled) :
    (takeWrap s).timebase.Sound enabled := by
  unfold takeWrap
  split
  · exact secondBoundary_timebase_sound h.toConsistent .advance
  · exact h

/-! ### Pulses and missing seconds (R44 to R55) -/

theorem pulseOffset_bounds {m : Nat} (h : m < 1000) : -500 ≤ pulseOffset m ∧ pulseOffset m ≤ 499 := by
  unfold pulseOffset
  split <;> omega

/-- The monitor of a source after a bad second (R46, R49). -/
def Monitor.afterBad (mon : Monitor) : Monitor :=
  { mon with state := if mon.state = .down then .down else .hunting, good := 0, last := none }

theorem badSecond_timebase (x : Link) (s : State) :
    (badSecond x s).timebase =
      { s.timebase with
        monitors := s.timebase.monitors.set x (s.monitor x).afterBad
        active := if (s.monitor x).state = .active then none else s.timebase.active } := by
  unfold badSecond
  simp only [noteLimited_frame, State.withStatus_timebase, Monitor.afterBad]
  split <;> rfl

/-- The monitor of a source after the other one has become the active one (R50, R55). -/
def Monitor.yielded (mon : Monitor) : Monitor := if mon.state = .active then { mon with state := .qualified } else mon

theorem activate_timebase (x : Link) (s : State) :
    (activate x s).timebase =
      { s.timebase with
        monitors := (s.timebase.monitors.set x.other (s.monitor x.other).yielded).set x
          { s.monitor x with state := .active }
        active := some x
        holdover := 0 } := by
  simp [activate, Monitor.yielded]

theorem Monitor.Sound.afterBad {mon : Monitor} (h : mon.Sound) : mon.afterBad.Sound := by
  obtain ⟨hgood, hlast, hnone, hqual, hdown⟩ := h
  unfold Monitor.afterBad
  refine ⟨by simp, by simp, by simp, ?_, ?_⟩ <;> dsimp only <;> split
  · simp
  · simp
  · next hd => exact fun _ => ⟨rfl, (hdown hd).2⟩
  · simp

theorem Monitor.Sound.yielded {mon : Monitor} (h : mon.Sound) : mon.yielded.Sound := by
  obtain ⟨hgood, hlast, hnone, hqual, hdown⟩ := h
  unfold Monitor.yielded
  split
  · next ha => exact ⟨hgood, hlast, hnone, fun _ => hqual (.inr ha), fun hd => by simp at hd⟩
  · exact ⟨hgood, hlast, hnone, hqual, hdown⟩

theorem Monitor.yielded_state (mon : Monitor) :
    (mon.yielded.state = .down ↔ mon.state = .down) ∧ mon.yielded.state ≠ .active := by
  unfold Monitor.yielded
  split <;> simp [*]

theorem Monitor.afterBad_state (mon : Monitor) :
    (mon.afterBad.state = .down ↔ mon.state = .down) ∧ mon.afterBad.state ≠ .active := by
  unfold Monitor.afterBad
  dsimp only
  split <;> simp [*]

section

variable {enabled : Link → Bool} {s : State} {x : Link}

theorem setPhase_timebase_consistent (h : s.timebase.Consistent enabled) (x : Link) :
    (setPhase x s).timebase.Consistent enabled := by
  obtain ⟨hgood, hlast, hnone, hqual, hdown⟩ : (s.monitor x).Sound := h.monitors x
  refine (h.setMonitor (mon := { s.monitor x with last := (s.monitor x).last.map (fun p => (p.1, 0)) })
    ⟨hgood, ?_, ?_, ?_, ?_⟩ Iff.rfl Iff.rfl).setPosition (m := 0) (by decide)
  · intro p hp
    simp only [Option.mem_def, Option.map_eq_some_iff] at hp
    obtain ⟨q, -, rfl⟩ := hp
    simp
  · simpa using hnone
  · simpa using hqual
  · simpa using hdown

theorem setPhase_timebase_sound (h : s.timebase.Sound enabled) (x : Link) : (setPhase x s).timebase.Sound enabled :=
  ⟨setPhase_timebase_consistent h.toConsistent x, h.valid⟩

theorem badSecond_timebase_sound (h : s.timebase.Sound enabled) (x : Link) :
    (badSecond x s).timebase.Sound enabled := by
  have hactive : s.timebase.active = some x ↔ (s.monitor x).state = .active := h.active x
  obtain ⟨hd, ha⟩ := (s.monitor x).afterBad_state
  have hsome : (if (s.monitor x).state = .active then none else s.timebase.active).isSome = true →
      s.timebase.active.isSome = true := by
    split <;> simp
  rw [badSecond_timebase]
  refine ⟨h.toConsistent.replace (Monitor.Sound.afterBad (h.monitors x)) ((h.down x).trans hd.symm) ?_ rfl ?_
    fun hs => h.holdover (hsome hs), fun hs => h.valid (hsome hs)⟩
  · split
    · simp [ha]
    · next hn => simp [ha, hactive, hn]
  · split
    · next hn => simp [hactive.2 hn]
    · rfl

/-- A source made active is consistent even before its time is valid (R50). -/
theorem activate_timebase_consistent (h : s.timebase.Consistent enabled) (hq : (s.monitor x).state = .qualified) :
    (activate x s).timebase.Consistent enabled := by
  obtain ⟨hgood, hlast, hnone, hqual, hdown⟩ : (s.monitor x).Sound := h.monitors x
  have hactive : s.timebase.active = some x ↔ (s.monitor x).state = .active := h.active x
  obtain ⟨hd, ha⟩ := (s.monitor x.other).yielded_state
  have hyield := (h.replace (x := x.other) (active := none) (Monitor.Sound.yielded (h.monitors x.other))
    ((h.down _).trans hd.symm) (iff_of_false (by simp) ha) rfl (by simp [hactive, hq]) (by simp)).clearHoldover
  rw [activate_timebase]
  refine hyield.replace (x := x) (mon := { s.monitor x with state := .active })
    ⟨hgood, hlast, hnone, fun _ => hqual (.inl hq), by simp⟩ ?_ (by simp) rfl (by simp) fun _ => rfl
  have hdown' : enabled x = false ↔ (s.monitor x).state = .down := h.down x
  simp [hdown', hq]

/-- Steering keeps a timebase sound: early the pulse is the boundary, late it sets the position (R48). -/
theorem steer_timebase_sound (h : s.timebase.Sound enabled) (x : Link) (e : Int) :
    (steer x e s).timebase.Sound enabled := by
  unfold steer
  split
  · exact secondBoundary_timebase_sound (setPhase_timebase_consistent h.toConsistent x) .advance
  · split
    · exact h
    · simpa using setPhase_timebase_sound h x

/-- A pulse agrees with the flywheel only while time is valid (R51). -/
theorem timeValid_of_agrees {f : EpochFrame} {e : Int} (h : agrees s f e = true) : timeValid s = true := by
  unfold agrees at h
  unfold timeValid
  cases hc : s.timebase.count with
  | none => simp [hc] at h
  | some c => rfl

theorem activate_timebase_sound (h : s.timebase.Consistent enabled) (hq : (s.monitor x).state = .qualified)
    (hv : timeValid s = true) : (activate x s).timebase.Sound enabled :=
  ⟨activate_timebase_consistent h hq, fun _ => by rw [activate_timebase]; exact hv⟩

theorem adopt_timebase_sound (h : s.timebase.Sound enabled) (hq : (s.monitor x).state = .qualified) (f : EpochFrame)
    (e : Int) : (adopt x f e s).timebase.Sound enabled := by
  have hc := activate_timebase_consistent h.toConsistent hq
  unfold adopt
  dsimp only
  split
  · exact secondBoundary_timebase_sound (setPhase_timebase_consistent hc x) _
  · split
    · next hagree => exact steer_timebase_sound (activate_timebase_sound h.toConsistent hq (timeValid_of_agrees hagree)) x e
    · exact secondBoundary_timebase_sound (setPhase_timebase_consistent (by simpa using hc) x) _

theorem revertiveTest_timebase_sound (h : s.timebase.Sound enabled) (hq : (s.monitor x).state = .qualified)
    (f : EpochFrame) (e : Int) : (revertiveTest x f e s).timebase.Sound enabled := by
  unfold revertiveTest
  split
  · next hagree =>
    split
    · exact steer_timebase_sound (activate_timebase_sound h.toConsistent hq (timeValid_of_agrees hagree)) x e
    · exact h
  · exact h

/-- A good second makes any monitor that is not DOWN sound (R46). -/
theorem Monitor.afterGood_sound {mon : Monitor} (hd : mon.state ≠ .down) {n : Nat} (hn : 1 ≤ n ∧ n ≤ 60)
    (f : EpochFrame) {e : Int} (he : -500 ≤ e ∧ e ≤ 499) : (mon.afterGood n f e).Sound := by
  refine ⟨?_, ?_, by simp [Monitor.afterGood], fun _ => ⟨rfl, ?_⟩, ?_⟩
  · exact (Nat.min_le_left _ _).trans hn.2
  · simpa [Monitor.afterGood] using he
  · exact Nat.le_min.2 ⟨hn.1, Nat.le_add_left _ _⟩
  · intro hdown
    have : mon.state = .down := by
      simp only [Monitor.afterGood] at hdown
      split at hdown
      · simp at hdown
      · exact hdown
    exact absurd this hd

/-- A good second qualifies a HUNTING monitor at most: it is DOWN or ACTIVE just when it was (R46). -/
theorem Monitor.afterGood_state (mon : Monitor) (n : Nat) (f : EpochFrame) (e : Int) :
    ((mon.afterGood n f e).state = .down ↔ mon.state = .down) ∧
      ((mon.afterGood n f e).state = .active ↔ mon.state = .active) := by
  simp only [Monitor.afterGood]
  split
  · next hs => simp [hs.1]
  · simp

theorem goodSecond_timebase_sound (h : s.timebase.Sound enabled) (hd : (s.monitor x).state ≠ .down) (f : EpochFrame)
    {e : Int} (he : -500 ≤ e ∧ e ≤ 499) : (goodSecond x f e s).timebase.Sound enabled := by
  have hn : 1 ≤ s.timebase.settings.qualify ∧ s.timebase.settings.qualify ≤ 60 := by
    obtain ⟨-, -, h1, h2, -⟩ := h.settings
    omega
  obtain ⟨hdown, hact⟩ := (s.monitor x).afterGood_state s.timebase.settings.qualify f e
  have h1 : (s.setMonitor x ((s.monitor x).afterGood s.timebase.settings.qualify f e)).timebase.Sound enabled :=
    h.setMonitor (Monitor.afterGood_sound hd hn f he) hdown hact
  unfold goodSecond
  dsimp only
  split
  · exact steer_timebase_sound h1 x e
  · split
    · next hq =>
      split
      · exact adopt_timebase_sound h1 hq f e
      · exact revertiveTest_timebase_sound h1 hq f e
    · exact h1

/-- A starting second stands at a monitor that has no last S yet, which is therefore HUNTING (R44, R46). -/
theorem startingSecond_timebase_sound (h : s.timebase.Sound enabled) (hd : (s.monitor x).state ≠ .down)
    (hn : (s.monitor x).last = none) (f : EpochFrame) {e : Int} (he : -500 ≤ e ∧ e ≤ 499) :
    (startingSecond x f e s).timebase.Sound enabled := by
  obtain ⟨hgood, hlast, hnone, hqual, hdown⟩ : (s.monitor x).Sound := h.monitors x
  refine h.setMonitor (mon := { s.monitor x with good := 0, last := some (f.count, e) })
    ⟨by simp, by simpa using he, by simp, fun hq => ?_, fun hs => absurd hs hd⟩ Iff.rfl Iff.rfl
  simpa [hn] using (hqual hq).1

theorem last_eq_none_of_starting {set : TimebaseSettings} {balance : Int} {mon : Monitor} {frame : Option EpochFrame}
    {e : Int} (h : judgePulse set balance mon frame e = .starting) : mon.last = none := by
  unfold judgePulse at h
  split at h
  · simp at h
  · split at h
    · simp at h
    · split at h
      · assumption
      · split at h <;> simp at h

end

/-! ### Pulses, with the latch that they consume (R42 to R46) -/

section

variable {s : State} {x : Link}

/-- Consuming the latch and counting what its frame brings keeps the promises (R44, R45). -/
theorem ReferenceSound.consumed (h : ReferenceSound s) (hd : (s.monitor x).state ≠ .down) (frame : Option EpochFrame)
    (e : Int) : ReferenceSound (noteStray x e (noteFrame x frame (consumePulse x s))) := by
  have he := h.enabled_of_monitor hd
  obtain ⟨hrx, hqueue, hset, hempty⟩ := h.link x
  have hconsumed : ReferenceSound (consumePulse x s) := by
    have hlatch : ReferenceSound (s.setLink x { s.link x with latch := none }) :=
      h.setLink (.of_enabled he hrx hqueue hset) rfl
    obtain ⟨hgood, hlast, hnone, hqual, hdown⟩ : (s.monitor x).Sound := h.timebase.monitors x
    exact hlatch.setMonitor (mon := { s.monitor x with timer := some 0, missed := 0, missDue := false })
      ⟨hgood, hlast, hnone, hqual, fun hs => absurd hs hd⟩ rfl
  have hnoted : ReferenceSound (noteFrame x frame (consumePulse x s)) := by
    unfold noteFrame
    split
    · exact hconsumed
    · split
      · exact hconsumed.congr (by simp) (by simp)
      · have hlink : (consumePulse x s).link x = { s.link x with latch := none } := by simp [consumePulse]
        refine hconsumed.of_link (l := x) (by simp) (by simp) ?_ (by simp [LinkState.recordError])
        rw [recordError_link_same, hlink]
        exact .of_enabled he hrx hqueue hset
  exact hnoted.congr (by simp) (by simp)

theorem ReferenceSound.judgeSecond (h : ReferenceSound s) (hd : (s.monitor x).state ≠ .down) :
    ReferenceSound (judgeSecond x s) := by
  have he := pulseOffset_bounds h.timebase.position
  have h1 := h.consumed hd (s.link x).latch (pulseOffset s.timebase.m)
  have hmon : (noteStray x (pulseOffset s.timebase.m) (noteFrame x (s.link x).latch (consumePulse x s))).monitor x =
      { s.monitor x with timer := some 0, missed := 0, missDue := false } := by simp [consumePulse]
  unfold Machine.judgeSecond
  dsimp only
  split
  · exact h1.of_timebase (by simp) (goodSecond_timebase_sound h1.timebase (by rw [hmon]; exact hd) _ he)
  · next hj _ =>
    exact h1.of_timebase (by simp) (startingSecond_timebase_sound h1.timebase (by rw [hmon]; exact hd)
      (by rw [hmon]; exact last_eq_none_of_starting hj) _ he)
  · exact h1.of_timebase (by simp) (badSecond_timebase_sound h1.timebase x)

theorem ReferenceSound.takePulse (h : ReferenceSound s) (x : Link) : ReferenceSound (takePulse x s) := by
  by_cases hd : (s.monitor x).state = .down
  · rwa [takePulse_of_down hd]
  · cases hw : pulseWaits s with
    | true =>
      rw [takePulse_of_waits hd hw]
      obtain ⟨hgood, hlast, hnone, hqual, hdown⟩ : (s.monitor x).Sound := h.timebase.monitors x
      exact h.setMonitor ⟨hgood, hlast, hnone, hqual, fun hs => absurd hs hd⟩ rfl
    | false =>
      rw [takePulse_of_judged hd hw]
      exact h.judgeSecond hd

theorem ReferenceSound.takeWaiting (h : ReferenceSound s) (x : Link) : ReferenceSound (takeWaiting x s) := by
  unfold Machine.takeWaiting
  split
  · obtain ⟨hgood, hlast, hnone, hqual, hdown⟩ : (s.monitor x).Sound := h.timebase.monitors x
    refine (h.setMonitor (mon := { s.monitor x with waiting := false })
      ⟨hgood, hlast, hnone, hqual, fun hs => ?_⟩ rfl).takePulse x
    obtain ⟨hl, ht, hm, -⟩ := hdown hs
    exact ⟨hl, ht, hm, rfl⟩
  · exact h

theorem ReferenceSound.takeMissing (h : ReferenceSound s) (x : Link) : ReferenceSound (takeMissing x s) := by
  unfold Machine.takeMissing
  split
  · obtain ⟨hgood, hlast, hnone, hqual, hdown⟩ : (s.monitor x).Sound := h.timebase.monitors x
    have h1 : ReferenceSound (s.setMonitor x { s.monitor x with missDue := false, missed := (s.monitor x).missed + 1 }) := by
      refine h.setMonitor ⟨hgood, hlast, hnone, hqual, fun hs => ?_⟩ rfl
      obtain ⟨hl, ht, -, hw⟩ := hdown hs
      exact ⟨hl, ht, rfl, hw⟩
    exact h1.of_timebase (by simp) (badSecond_timebase_sound h1.timebase x)
  · exact h

theorem ReferenceSound.takeL6Pulse (h : ReferenceSound s) : ReferenceSound (takeL6Pulse s) := by
  unfold Machine.takeL6Pulse
  split
  · exact ReferenceSound.takePulse (h.congr (by simp) (by simp)) .b
  · exact h

theorem ReferenceSound.takeEdge (h : ReferenceSound s) (i : PulseInput) : ReferenceSound (takeEdge i s) := by
  cases i with
  | ppsA => exact h.takePulse .a
  | ppsB =>
    simp only [Machine.takeEdge]
    split
    · exact h
    · exact h.takePulse .b
  | lineL6 => exact h.takeL6Pulse

theorem ReferenceSound.formWrap (h : ReferenceSound s) : ReferenceSound (formWrap s) := by
  have h0 : ReferenceSound (if routedL6 s then takeFilterChange .l6 s else s) := by
    split
    · exact h.congr (by simp) (by simp)
    · exact h
  have h1 := h0.takeL6Pulse
  have h2 := takeWrap_timebase_sound h1.timebase
  exact h1.of_timebase (by simp [Machine.formWrap]) ⟨⟨h2.monitors, h2.down, h2.active, h2.settings, h2.position,
    h2.holdover, h2.holdoverMax⟩, h2.valid⟩

end

/-! ### The keying step and its pulses (R40 to R45) -/

section

variable {s : State}

theorem ReferenceSound.closeStep (h : ReferenceSound s) : ReferenceSound (closeStep s) := by
  have h0 : ReferenceSound (takeFilterChanges s) := h.congr (by simp) (by simp)
  have h1 : ReferenceSound (if (takeFilterChanges s).timebase.wrapDue then Machine.formWrap (takeFilterChanges s)
      else Machine.takeL6Pulse (takeFilterChanges s)) := by
    split
    · exact h0.formWrap
    · exact h0.takeL6Pulse
  exact ((h1.takeMissing .a).takeMissing .b).congr (by simp [Machine.closeStep]) (by simp [Machine.closeStep])

theorem Monitor.Sound.tick {mon : Monitor} (h : mon.Sound) (w : Nat) : (mon.tick w).Sound := by
  obtain ⟨hgood, hlast, hnone, hqual, hdown⟩ := h
  unfold Monitor.tick
  split
  · exact ⟨hgood, hlast, hnone, hqual, hdown⟩
  · next ht =>
    refine ⟨hgood, hlast, hnone, hqual, fun hs => ?_⟩
    obtain ⟨-, hn, -⟩ := hdown hs
    simp [ht] at hn

theorem Monitor.tick_state (mon : Monitor) (w : Nat) : (mon.tick w).state = mon.state := by
  unfold Monitor.tick
  split <;> rfl

theorem Timebase.Sound.tick {enabled : Link → Bool} {tb : Timebase} (h : tb.Sound enabled) : tb.tick.Sound enabled := by
  have hget (x : Link) : tb.tick.monitors.get x = (tb.monitors.get x).tick tb.settings.window := by cases x <;> rfl
  refine ⟨⟨fun x => ?_, fun x => ?_, fun x => ?_, h.settings, Nat.mod_lt _ (by decide), h.holdover, h.holdoverMax⟩,
    h.valid⟩
  · rw [hget]; exact (h.monitors x).tick _
  · rw [hget, Monitor.tick_state]; exact h.down x
  · rw [hget, Monitor.tick_state]; exact h.active x

theorem openStep_timebase (pins : PinIn) (s : State) : (openStep pins s).timebase = s.timebase.tick := by
  simp [openStep]

theorem ReferenceSound.openStep (h : ReferenceSound s) (pins : PinIn) : ReferenceSound (openStep pins s) :=
  h.of_timebase (by simp) (openStep_timebase pins s ▸ h.timebase.tick)

theorem ReferenceSound.execPulse {t : State} (h : ReferenceSound s) (i : PulseEdges) (ht : execPulse i s = .next t) :
    ReferenceSound t := by
  have hwrap (w : Bool) {u : State} (hu : ReferenceSound u) : ReferenceSound (if w then Machine.formWrap u else u) := by
    cases w
    · exact hu
    · exact hu.formWrap
  obtain ⟨input, also⟩ := i
  obtain rfl := Host.Outcome.next.inj ht
  cases also with
  | some k => exact hwrap _ ((h.takeEdge input).takeEdge k)
  | none => exact hwrap _ (h.takeEdge input)

end

end Sys2Proof.Machine

/-! PROOFS. Every step keeps links, monitors and active source sound (O50): what a character, a reply and a request do to a link,
and the step over all commands (R4 to R22, R36, R38, R59). -/

namespace Sys2Proof.Machine

/-! ### What an ENABLED link receives (R4 to R12) -/

/-- The promises hold, and this link is ENABLED: what a link that receives or serves a request has. -/
structure Receiving (l : Link) (s : State) : Prop where
  sound : ReferenceSound s
  enabled : (s.link l).enabled = true

section

variable {l : Link} {s : State}

theorem Receiving.setLink (h : Receiving l s) {ls : LinkState} (he : ls.enabled = true) (hrx : ls.rx.sound = true)
    (hqueue : ls.queue.length ≤ 4) (hset : ls.settings.InRange) : Receiving l (s.setLink l ls) :=
  ⟨h.sound.setLink (.of_enabled he hrx hqueue hset) (he.trans h.enabled.symm), by simpa using he⟩

theorem Receiving.congr {t : State} (h : Receiving l s) (hl : t.links = s.links) (ht : t.timebase = s.timebase) :
    Receiving l t :=
  ⟨h.sound.congr hl ht, by rw [State.link, hl]; exact h.enabled⟩

theorem Receiving.rx_sound (h : Receiving l s) : (s.link l).rx.sound = true := (h.sound.link l).1

theorem Receiving.queue_le (h : Receiving l s) : (s.link l).queue.length ≤ 4 := (h.sound.link l).2.1

theorem Receiving.settings_inRange (h : Receiving l s) : (s.link l).settings.InRange := (h.sound.link l).2.2.1

theorem Receiving.setRx (h : Receiving l s) {rx : RxState} (hrx : rx.sound = true) : Receiving l (setRx l rx s) :=
  h.setLink h.enabled hrx h.queue_le h.settings_inRange

theorem Receiving.recordError (h : Receiving l s) (k : ErrKind) : Receiving l (recordError l k s) :=
  (h.setLink (ls := (s.link l).recordError k) h.enabled h.rx_sound h.queue_le h.settings_inRange).congr rfl rfl

theorem Receiving.muteWith (h : Receiving l s) (k : ErrKind) : Receiving l (muteWith l k s) := (h.recordError k).setRx rfl

theorem Receiving.endCharacter (h : Receiving l s) : Receiving l (endCharacter l s) :=
  h.setLink h.enabled h.rx_sound h.queue_le h.settings_inRange

theorem Receiving.filterFrame (h : Receiving l s) (hd : Header) (check : Byte) : Receiving l (filterFrame l hd check s) := by
  unfold Machine.filterFrame
  split
  · exact h.muteWith _
  · split
    · exact h.muteWith _
    · next hlen => exact h.setRx (by simp [RxState.sound, frameComplete]; omega)

theorem Receiving.filterAddress (h : Receiving l s) (hd : Header) (corrected : Bool) (check : Byte) :
    Receiving l (filterAddress l hd corrected check s) := by
  unfold Machine.filterAddress
  split
  · exact h.setRx rfl
  · cases corrected
    · exact h.filterFrame _ _
    · exact (h.recordError _).filterFrame _ _

theorem Receiving.checkHeader (h : Receiving l s) (hd : Header) (check : Byte) : Receiving l (checkHeader l hd check s) := by
  unfold Machine.checkHeader
  split
  · exact h.filterAddress _ _ _
  · exact h.filterAddress _ _ _
  · exact h.muteWith _

/-- A byte stored in PAYLOAD that does not complete the frame leaves it short; one that does stays only with a good CRC (R8). -/
theorem Receiving.storePayload (h : Receiving l s) {hd : Header} {check : Byte} {got : List Byte}
    (hlen : hd.length.toNat ≤ 240) (hgot : got.length ≤ hd.length.toNat + 2) :
    Receiving l (storePayload l hd check got s) := by
  unfold Machine.storePayload
  split
  · exact h.muteWith _
  · next hc =>
    refine h.setRx ?_
    cases hcomplete : frameComplete hd got
    · simp [RxState.sound, hlen, hgot, hcomplete]
    · simpa [RxState.sound, hlen, hgot, hcomplete] using hc

theorem Receiving.receiveByte (h : Receiving l s) (b : Byte) : Receiving l (receiveByte l b s) := by
  have hsound := h.rx_sound
  unfold Machine.receiveByte
  split
  · split
    · exact h.setRx rfl
    · exact h
  · next got hrx =>
    split
    · exact h.checkHeader _ _
    · next hne =>
      have hle : got.length ≤ 3 := by simpa [hrx, RxState.sound] using hsound
      have h3 : got.length ≠ 3 := fun h3 => by
        obtain ⟨a, k, n, rfl⟩ := List.length_eq_three.1 h3
        exact hne a k n rfl
      refine h.setRx ?_
      simp only [RxState.sound, List.length_append, List.length_singleton, decide_eq_true_eq]
      omega
  · next hd check got hrx =>
    split
    · exact h.muteWith _
    · next hc =>
      simp only [hrx, RxState.sound, Bool.and_eq_true, decide_eq_true_eq] at hsound
      simp only [frameComplete, decide_eq_true_eq] at hc
      refine h.storePayload hsound.1.1 ?_
      rw [List.length_append, List.length_singleton]
      omega
  · exact h

theorem Receiving.receiveFault (h : Receiving l s) (k : ErrKind) : Receiving l (receiveFault l k s) := by
  unfold Machine.receiveFault
  split
  · exact h
  · exact h.muteWith _
  · exact h.muteWith _
  · exact h

theorem Receiving.takeFrame (h : Receiving l s) (hd : Header) (payload : List Byte) :
    Receiving l (takeFrame l hd payload s) := by
  have latched {t : State} (ht : Receiving l t) (f : EpochFrame) :
      Receiving l (t.setLink l { t.link l with latch := some f }) :=
    ht.setLink ht.enabled ht.rx_sound ht.queue_le ht.settings_inRange
  unfold Machine.takeFrame takeEpoch takeRequestFrame
  split
  · dsimp only
    split
    · exact latched (h.recordError _) _
    · exact latched h _
  · split
    · split
      · exact h.recordError _
      · split
        · exact h.recordError _
        · next hfull =>
          refine h.setLink h.enabled h.rx_sound ?_ h.settings_inRange
          rw [List.length_append, List.length_singleton]
          omega
    · exact h

theorem Receiving.receiveIdle (h : Receiving l s) : Receiving l (receiveIdle l s) := by
  unfold Machine.receiveIdle
  split
  · exact h
  · exact (h.recordError _).setRx rfl
  · split
    · exact (h.setRx rfl).takeFrame _ _
    · exact (h.recordError _).setRx rfl
  · exact h.setRx rfl

/-! ### The transmitter (R14, R18) -/

theorem Receiving.setTx (h : Receiving l s) (tx : Tx) : Receiving l (setTx l tx s) :=
  h.setLink h.enabled h.rx_sound h.queue_le h.settings_inRange

theorem Receiving.sendPoint (h : Receiving l s) (r : Reply) : Receiving l (sendPoint l r s) :=
  h.setLink h.enabled h.rx_sound h.queue_le h.settings_inRange

theorem Receiving.endReply (h : Receiving l s) : Receiving l (endReply l s) := by
  unfold Machine.endReply
  split
  · exact h.setTx _
  · exact h.setTx _

/-- A link whose transmitter is not emptied is ENABLED (R21). -/
theorem ReferenceSound.receiving_of_tx (h : ReferenceSound s) (htx : (s.link l).tx.emptied = false) : Receiving l s := by
  refine ⟨h, Bool.eq_true_of_not_eq_false fun he => ?_⟩
  obtain ⟨-, -, -, -, -, -, -, hempty⟩ := (h.link l).2.2.2 he
  rw [hempty] at htx
  cases htx

/-- A transmitter becomes IDLE on any link. -/
theorem ReferenceSound.setTx_idle (h : ReferenceSound s) (l : Link) : ReferenceSound (setTx l .idle s) := by
  obtain ⟨hrx, hqueue, hset, hempty⟩ := h.link l
  refine h.setLink ⟨hrx, hqueue, hset, fun he => ?_⟩ rfl
  obtain ⟨h1, h2, h3, h4, h5, h6, h7, -⟩ := hempty he
  exact ⟨h1, h2, h3, h4, h5, h6, h7, rfl⟩

end

/-! ### Requests that concern neither links nor timebase -/

/-- What holds of the state before and of the state that a request's own answer leaves holds after its first checks. -/
theorem checked_state {P : State → Prop} {own : Request → State → Answer} {rq : Request} {s : State} (n : Nat)
    (c : PermClass) (hs : P s) (ho : P (own rq s).state) : P (checked n c own rq s).state := by
  rcases checked_cases n c own rq s with ⟨-, h⟩ | ⟨-, -, h⟩ | ⟨-, -, h⟩ <;> rw [h]
  · exact hs
  · exact hs
  · exact ho

theorem lengthChecked_state {P : State → Prop} {own : Request → State → Answer} {rq : Request} {s : State} (n : Nat)
    (hs : P s) (ho : P (own rq s).state) : P (lengthChecked n own rq s).state := by
  unfold lengthChecked
  split
  · exact hs
  · exact ho

/-- The second state has the links and the timebase of the first. -/
structure State.SameReferences (s t : State) : Prop where
  links : t.links = s.links
  timebase : t.timebase = s.timebase

theorem State.SameReferences.trans {s t u : State} (h1 : s.SameReferences t) (h2 : t.SameReferences u) :
    s.SameReferences u :=
  ⟨h2.links.trans h1.links, h2.timebase.trans h1.timebase⟩

/-- The own answers of the requests that concern neither links nor timebase, the reads apart. -/
def blockAnswers (pins : PinIn) : List (Request → State → Answer) :=
  [setPermissionsAnswer, softRestartAnswer, setBalanceAnswer, setCivilAnswer, setWindowsAnswer, addLeapAnswer,
    deleteLeapAnswer, addTransitionAnswer, deleteTransitionAnswer, writeMapOwn, copyMapAnswer, commitMapAnswer,
    cancelCommitAnswer, writeTestOwn, pushOverrideAnswer, popOverrideAnswer, removeOverrideAnswer, writeProfileAnswer,
    setRampAnswer, setAssemblySlotAnswer, writeLinesAnswer pins]

theorem writeLinesAnswer_sameReferences (pins : PinIn) (rq : Request) (s : State) :
    s.SameReferences (writeLinesAnswer pins rq s).state := by
  unfold writeLinesAnswer
  split
  · split
    · exact ⟨rfl, rfl⟩
    · exact ⟨by simp, by simp⟩
  · split
    · exact ⟨rfl, rfl⟩
    · exact ⟨rfl, rfl⟩

theorem blockAnswers_sameReferences {pins : PinIn} {own : Request → State → Answer} (h : own ∈ blockAnswers pins)
    (rq : Request) (s : State) : s.SameReferences (own rq s).state := by
  revert own
  simp only [blockAnswers, List.forall_mem_cons, List.not_mem_nil, IsEmpty.forall_iff, implies_true, and_true,
    writeLinesAnswer_sameReferences]
  and_intros
  all_goals
    simp only [setPermissionsAnswer, softRestartAnswer, setBalanceAnswer, setCivilAnswer, setWindowsAnswer, addLeapAnswer,
      deleteLeapAnswer, addTransitionAnswer, deleteTransitionAnswer, writeMapOwn, copyMapAnswer, commitMapAnswer,
      cancelCommitAnswer, writeTestOwn, pushOverrideAnswer, popOverrideAnswer, removeOverrideAnswer, writeProfileAnswer,
      setRampAnswer, setAssemblySlotAnswer]
    repeat' split
    all_goals exact ⟨rfl, rfl⟩

/-- The own answers of the reads but READ_STATUS. -/
def readAnswers : List (Request → State → Answer) :=
  [readMapAnswer, readProfileAnswer, readListsAnswer, readStackAnswer, readWordAnswer, readLinesAnswer]

/-- A read changes nothing of the part (R35). -/
theorem readAnswers_state {own : Request → State → Answer} (h : own ∈ readAnswers) (rq : Request) (s : State) :
    (own rq s).state = s := by
  have hread (image : List Byte) : (readOn rq image s).state = s := readAnswer_state ..
  revert own
  simp only [readAnswers, List.forall_mem_cons, List.not_mem_nil, IsEmpty.forall_iff, implies_true, and_true]
  refine ⟨?_, ?_, hread _, hread _, hread _, hread _⟩
  · unfold readMapAnswer
    split
    · rfl
    · exact hread _
  · unfold readProfileAnswer
    split
    · rfl
    · exact hread _

theorem clearStatus_sameReferences (s : State) : s.SameReferences (clearStatus s) := ⟨rfl, rfl⟩

theorem readStatusAnswer_sameReferences (rq : Request) (s : State) : s.SameReferences (readStatusAnswer rq s).state := by
  have hcapture : s.SameReferences (captureStatus rq s).state := by
    have hstate : (captureStatus rq s).state = if rq.wantsReply then s.withFreeDraws (s.freeDraws + 1) else s := by
      unfold captureStatus readOn
      exact readAnswer_state ..
    constructor <;> rw [hstate] <;> split <;> rfl
  unfold readStatusAnswer
  split
  · exact ⟨rfl, rfl⟩
  · next clear _ =>
    split
    · exact ⟨rfl, rfl⟩
    · cases clear
      · exact hcapture
      · exact hcapture.trans (clearStatus_sameReferences _)

/-! ### CONTROL (R34) -/

theorem carrierPart_sameReferences {b : Byte} {s t : State} (h : carrierPart b s = .ok t) : s.SameReferences t := by
  have hoff : s.SameReferences (carrierOff s) := by
    unfold carrierOff
    repeat' split
    all_goals exact ⟨rfl, rfl⟩
  unfold carrierPart carrierOn at h
  repeat' split at h
  all_goals
    cases h
    try exact ⟨rfl, rfl⟩
  exact hoff

theorem codePart_sameReferences {b : Byte} {s t : State} (h : codePart b s = .ok t) : s.SameReferences t := by
  have hoff : s.SameReferences (codeOff s) := by
    unfold codeOff
    split <;> exact ⟨rfl, rfl⟩
  unfold codePart codeOn at h
  repeat' split at h
  all_goals
    cases h
    try exact ⟨rfl, rfl⟩
  exact hoff

/-- An applied part of CONTROL that is kept only sometimes. -/
theorem sameReferences_of_ite {kept : Bool} {part : Except Reason State} {s t : State}
    (hpart : part = .ok t → s.SameReferences t) (h : (if kept then part else .ok s) = .ok t) : s.SameReferences t := by
  cases kept
  · cases h
    exact ⟨rfl, rfl⟩
  · exact hpart h

theorem controlAnswer_sameReferences (rq : Request) (s : State) : s.SameReferences (controlAnswer rq s).state := by
  unfold controlAnswer
  split
  · exact ⟨rfl, rfl⟩
  · split
    · exact ⟨rfl, rfl⟩
    · next s1 h1 =>
      split
      · exact ⟨rfl, rfl⟩
      · next s2 h2 =>
        have hkept : s.SameReferences s2 :=
          (sameReferences_of_ite carrierPart_sameReferences h1).trans (sameReferences_of_ite codePart_sameReferences h2)
        refine hkept.trans ?_
        cases keptPart rq s 2 .profiles <;> cases keptPart rq s 3 .spare <;> exact ⟨rfl, rfl⟩

/-! ### Requests on the links and the timebase (R20 to R22, R36, R59) -/

section

variable {s : State} {rq : Request}

theorem Tx.withBegun_emptied {tx : Tx} (h : tx.emptied = true) (p : Parity) (n : Nat) : (tx.withBegun p n).emptied = true := by
  cases tx <;> simp_all [Tx.withBegun, Tx.emptied]

theorem Tx.dropped_emptied (tx : Tx) (p : Parity) (n : Nat) : (tx.dropped p n).emptied = true := by cases tx <;> rfl

/-- New settings in their ranges keep a link sound, ENABLED or not (R20, R36). -/
theorem LinkState.Sound.withSettings {ls : LinkState} (h : ls.Sound) (wire : WireIn) {w : LinkSettings} (hw : w.InRange) :
    (ls.withSettings wire w).Sound := by
  obtain ⟨hrx, hqueue, -, hempty⟩ := h
  refine ⟨hrx, hqueue, hw, fun he => ?_⟩
  have hd : ls.enabled = false := he
  obtain ⟨h1, h2, h3, h4, h5, h6, h7, h8⟩ := hempty hd
  exact ⟨h1, h2, h3, h4, h5, by simp [LinkState.withSettings, hd], by simp [LinkState.withSettings, h7],
    Tx.withBegun_emptied h8 _ _⟩

theorem setLinkAnswer_receiving (wire : WireIn) (h : Receiving rq.src s) : Receiving rq.src (setLinkAnswer wire rq s).state := by
  unfold setLinkAnswer
  split
  · next target parity stop _ _ _ =>
    have hn := clamp_bounds (lo := 1) (hi := 63) (rq.num 1) (by decide)
    have hlead := clamp_bounds (lo := 0) (hi := 15) (rq.num 4) (by decide)
    have htail := clamp_bounds (lo := 0) (hi := 15) (rq.num 5) (by decide)
    have hset := (h.sound.link target).2.2.1
    refine ⟨h.sound.setLink (LinkState.Sound.withSettings (h.sound.link target) wire ?_) rfl, ?_⟩
    · exact ⟨hn.1, hn.2, hset.2.2.1, hset.2.2.2.1, hlead.2, htail.2⟩
    · rw [carriedOut_state, State.link_setLink]
      split
      · next he => exact he ▸ h.enabled
      · exact h.enabled
  · exact h

theorem setReturnLimitAnswer_receiving (h : Receiving rq.src s) : Receiving rq.src (setReturnLimitAnswer rq s).state := by
  obtain ⟨h1, h2, -, -, h5, h6⟩ := h.settings_inRange
  have hv := clamp_bounds (lo := 8) (hi := 192) (rq.num 0) (by decide)
  exact h.setLink h.enabled h.rx_sound h.queue_le ⟨h1, h2, hv.1, hv.2, h5, h6⟩

theorem freshMonitor_sound {st : MonitorState} (h : st = .hunting ∨ st = .down) : (freshMonitor st).Sound := by
  rcases h with rfl | rfl <;> decide

/-- A link with its monitor replaced together, and the other link left alone, keeps the promises when the timebase's share is
kept for the links that are then ENABLED. -/
theorem ReferenceSound.replace {s t : State} (h : ReferenceSound s) {x : Link}
    (hother : t.link x.other = s.link x.other) (hs : (t.link x).Sound) (ht : t.timebase.Sound t.enabledLinks) :
    ReferenceSound t := by
  refine (referenceSound_iff t).2 ⟨fun k => ?_, ht⟩
  rcases Link.eq_or_eq_other x k with rfl | rfl
  · exact hs
  · exact hother ▸ h.link _

/-- DISABLE_LINK leaves its target empty, its monitor DOWN and not the active source (R21, R49). -/
theorem disableEffect_sound (h : ReferenceSound s) (x : Link) (wire : WireIn) : ReferenceSound (disableEffect x wire s) := by
  obtain ⟨-, -, hset, -⟩ := h.link x
  have hlink : (disableEffect x wire s).link x = (s.link x).disabled wire := by simp [disableEffect]
  have hother : (disableEffect x wire s).link x.other = s.link x.other := by simp [disableEffect]
  have htb : (disableEffect x wire s).timebase =
      { s.timebase with
        monitors := s.timebase.monitors.set x (freshMonitor .down)
        active := if s.timebase.active = some x then none else s.timebase.active } := by
    simp only [disableEffect, noteLimited_frame]
    rfl
  have hsome : (if s.timebase.active = some x then none else s.timebase.active).isSome = true →
      s.timebase.active.isSome = true := by split <;> simp
  refine h.replace hother ?_ ?_
  · rw [hlink]
    exact ⟨rfl, by simp [LinkState.disabled], hset, fun _ => ⟨rfl, rfl, rfl, rfl, rfl, rfl, rfl, Tx.dropped_emptied ..⟩⟩
  · rw [htb]
    refine ⟨h.timebase.toConsistent.replace (freshMonitor_sound (.inr rfl)) ?_ ?_ ?_ ?_
      fun hs => h.timebase.holdover (hsome hs), fun hs => h.timebase.valid (hsome hs)⟩
    · simp [State.enabledLinks, hlink, LinkState.disabled, freshMonitor]
    · split <;> simp [freshMonitor, *]
    · rw [State.enabledLinks, hother]
    · split
      · next ha => simp [ha]
      · rfl

/-- ENABLE_LINK leaves a DISABLED target HUNT and HUNTING (R22, R43). -/
theorem enableEffect_sound (h : ReferenceSound s) {x : Link} (hd : (s.link x).enabled = false) (wire : WireIn) :
    ReferenceSound (enableEffect x wire s) := by
  obtain ⟨-, hqueue, hset, -⟩ := h.link x
  have hother : (enableEffect x wire s).link x.other = s.link x.other := by simp [enableEffect]
  have hdown : (s.timebase.monitors.get x).state = .down := (h.timebase.down x).1 hd
  have hactive : s.timebase.active ≠ some x := fun ha => by simpa [hdown] using (h.timebase.active x).1 ha
  refine h.replace hother ?_ ?_
  · rw [enableEffect_link_same]
    exact .of_enabled rfl rfl hqueue hset
  · refine ⟨h.timebase.toConsistent.replace (x := x) (mon := freshMonitor .hunting) (freshMonitor_sound (.inl rfl)) ?_ ?_ ?_
      Iff.rfl h.timebase.holdover, h.timebase.valid⟩
    · simp [State.enabledLinks, freshMonitor]
    · simp [freshMonitor, hactive]
    · rw [State.enabledLinks, hother]

theorem disableLinkAnswer_receiving (wire : WireIn) (h : Receiving rq.src s) :
    Receiving rq.src (disableLinkAnswer wire rq s).state := by
  unfold disableLinkAnswer
  split
  · exact h
  · next t _ =>
    split
    · exact h
    · next hne =>
      split
      · exact h
      · rw [carriedOut_state]
        split
        · obtain rfl := Link.eq_other_of_ne hne
          exact ⟨disableEffect_sound h.sound _ wire, by simpa [disableEffect] using h.enabled⟩
        · exact h

theorem enableLinkAnswer_receiving (wire : WireIn) (h : Receiving rq.src s) :
    Receiving rq.src (enableLinkAnswer wire rq s).state := by
  unfold enableLinkAnswer
  split
  · exact h
  · next t _ =>
    split
    · exact h
    · next hne =>
      split
      · exact h
      · rw [carriedOut_state]
        split
        · exact h
        · next hd =>
          obtain rfl := Link.eq_other_of_ne hne
          exact ⟨enableEffect_sound h.sound (by simpa using hd) wire, by simpa [enableEffect] using h.enabled⟩

theorem TimebaseSettings.clamped_inRange {w : TimebaseSettings} (h : w.warn ≤ 65535) : w.clamped.InRange := by
  have hw := clamp_bounds (lo := 1) (hi := 10) w.window (by decide)
  have hq := clamp_bounds (lo := 2) (hi := 60) w.qualify (by decide)
  have hl := clamp_bounds (lo := 1) (hi := 10080) w.limit (by decide)
  exact ⟨hw.1, hw.2, hq.1, hq.2, h, hl.1, hl.2⟩

theorem Request.timebaseSettings_warn {w : TimebaseSettings} (h : rq.timebaseSettings = some w) : w.warn ≤ 65535 := by
  unfold Request.timebaseSettings at h
  split at h
  · cases h
    exact Nat.le_of_lt_succ (rq.num2_lt 5)
  · cases h

theorem setTimebaseAnswer_receiving (h : Receiving rq.src s) : Receiving rq.src (setTimebaseAnswer rq s).state := by
  unfold setTimebaseAnswer
  split
  · exact h
  · next given hg =>
    have htb := h.sound.timebase
    have hset := TimebaseSettings.clamped_inRange (Request.timebaseSettings_warn hg)
    have h1 : Receiving rq.src (s.withTimebase { s.timebase with settings := given.clamped }) :=
      ⟨h.sound.of_timebase rfl ⟨⟨htb.monitors, htb.down, htb.active, hset, htb.position, htb.holdover, htb.holdoverMax⟩,
        htb.valid⟩, h.enabled⟩
    exact h1.congr (by simp) (by simp)

/-! ### The take of a request (R26, R28) -/

/-- A link with a request in its queue is ENABLED (R21). -/
theorem Receiving.of_queue (h : ReferenceSound s) {l : Link} (hq : (s.link l).queue ≠ []) : Receiving l s := by
  refine ⟨h, Bool.eq_true_of_not_eq_false fun he => ?_⟩
  obtain ⟨-, -, hempty, -⟩ := (h.link l).2.2.2 he
  exact hq hempty

theorem Receiving.popTaken {l : Link} (h : Receiving l s) : Receiving l (popTaken l s) :=
  (h.setLink (ls := { s.link l with queue := (s.link l).queue.drop 1 }) h.enabled h.rx_sound
    ((List.drop_sublist 1 _).length_le.trans h.queue_le) h.settings_inRange).congr rfl rfl

theorem Receiving.finishTake {an : Answer} (h : Receiving rq.src an.state) : ReferenceSound (finishTake rq an) := by
  obtain ⟨ls, he, hls⟩ := finishTake_cases rq an
  have hk : Receiving rq.src (an.state.setLink rq.src ls) := by
    rw [hls]
    exact h.setLink h.enabled h.rx_sound h.queue_le h.settings_inRange
  exact he ▸ hk.sound

theorem writeMapAnswer_state {P : State → Prop} (hs : P s) (ho : P (writeMapOwn rq s).state) :
    P (writeMapAnswer rq s).state := by
  unfold writeMapAnswer
  repeat' split
  · exact hs
  · exact hs
  · exact ho

theorem writeTestAnswer_state {P : State → Prop} (hs : P s) (ho : P (writeTestOwn rq s).state) :
    P (writeTestAnswer rq s).state := by
  unfold writeTestAnswer
  repeat' split
  · exact hs
  · exact hs
  · exact ho

/-- Every handler of the list keeps the promises, and the link that it serves ENABLED. -/
theorem row_receiving {src : Link} {pins : PinIn} {wire : WireIn} {row : RequestRow} (hrow : row ∈ requestRows src pins wire)
    (h : Receiving rq.src s) : Receiving rq.src (row.handler rq s).state := by
  have same {t : State} (ht : s.SameReferences t) : Receiving rq.src t := h.congr ht.links ht.timebase
  have block {own : Request → State → Answer} (ho : own ∈ blockAnswers pins) : Receiving rq.src (own rq s).state :=
    same (blockAnswers_sameReferences ho rq s)
  have checkedBlock {own : Request → State → Answer} (ho : own ∈ blockAnswers pins) (n : Nat) (c : PermClass) :
      Receiving rq.src (checked n c own rq s).state := checked_state n c h (block ho)
  have lengthRead {own : Request → State → Answer} (ho : own ∈ readAnswers) (n : Nat) :
      Receiving rq.src (lengthChecked n own rq s).state :=
    lengthChecked_state (P := Receiving rq.src) n h ((readAnswers_state ho rq s).symm ▸ h)
  revert row
  simp only [requestRows, List.forall_mem_cons, List.not_mem_nil, IsEmpty.forall_iff, implies_true, and_true]
  refine ⟨checked_state _ _ h (setLinkAnswer_receiving wire h), checked_state _ _ h (setReturnLimitAnswer_receiving h),
    lengthChecked_state _ h (disableLinkAnswer_receiving wire h), lengthChecked_state _ h (enableLinkAnswer_receiving wire h),
    lengthChecked_state _ h (block ?_), checkedBlock ?_ _ _, checked_state _ _ h (setTimebaseAnswer_receiving h),
    checkedBlock ?_ _ _, checkedBlock ?_ _ _, checkedBlock ?_ _ _, checkedBlock ?_ _ _, checkedBlock ?_ _ _,
    checkedBlock ?_ _ _, checkedBlock ?_ _ _, writeMapAnswer_state h (block ?_), checkedBlock ?_ _ _, checkedBlock ?_ _ _,
    checkedBlock ?_ _ _, writeTestAnswer_state h (block ?_), checkedBlock ?_ _ _, checkedBlock ?_ _ _, checkedBlock ?_ _ _,
    checkedBlock ?_ _ _, checkedBlock ?_ _ _, checkedBlock ?_ _ _, checkedBlock ?_ _ _, lengthRead ?_ _, lengthRead ?_ _,
    lengthRead ?_ _, lengthRead ?_ _, lengthRead ?_ _, lengthRead ?_ _,
    lengthChecked_state _ h (same (readStatusAnswer_sameReferences rq s))⟩
  all_goals simp [blockAnswers, readAnswers]

/-- Every request keeps the promises (R26 to R28). -/
theorem request_keeps_references {c : Instr} {src : Link} {s t : State} (hc : sourceOf c = some src)
    (h : ReferenceSound s) (ht : exec c s = .next t) : ReferenceSound t := by
  have answered {name : Byte} {rq : Request} (htakes : Takes name src s rq)
      {handler : Request → State → Answer}
      (hh : Receiving rq.src (popTaken src s) → Receiving rq.src (handler rq (popTaken src s)).state) :
      ReferenceSound (finishTake rq (handler rq (popTaken src s))) := by
    obtain ⟨f, q, hq, -⟩ := id htakes
    have hr : Receiving src (popTaken src s) := (Receiving.of_queue h (by rw [hq]; simp)).popTaken
    rw [← htakes.src] at hr
    exact (hh (htakes.src ▸ hr)).finishTake
  rcases sourceOf_cases hc with ⟨pins, wire, row, hrow, rfl⟩ | hcontrol | rfl
  · rw [exec_row hrow] at ht
    obtain rfl := Host.Outcome.next.inj ht
    rcases takeNamed_cases row.name row.handler src s with he | ⟨rq, htakes, he⟩
    · rwa [he]
    · rw [he]
      exact answered htakes fun hr => row_receiving hrow hr
  · obtain ⟨row, hrow⟩ := exec_control hcontrol
    rw [hrow] at ht
    obtain rfl := Host.Outcome.next.inj ht
    rcases takeControl_cases row src s with he | ⟨rq, htakes, he⟩
    · rwa [he]
    · rw [he]
      have hsame := controlAnswer_sameReferences rq (popTaken src s)
      exact answered htakes fun hr => hr.congr hsame.links hsame.timebase
  · obtain rfl := Host.Outcome.next.inj ht
    by_cases hq : (s.link src).queue = []
    · rwa [show takeUnknown src s = s by simp [takeUnknown, nextTake, hq]]
    · have hr := (Receiving.of_queue h hq).popTaken
      rcases takeUnknown_cases src s with he | he | ⟨rq, hsrc, he⟩ <;> rw [he]
      · exact h
      · exact hr.sound
      · subst hsrc
        exact Receiving.finishTake (an := refuse .unknownRequest _) hr

end

/-! ### The resets (R23, R38) -/

theorem reset_references : ReferenceSound State.reset := by
  refine (referenceSound_iff _).2 ⟨fun l => by cases l <;> decide, ⟨⟨?_, ?_, ?_, ?_, ?_, ?_, ?_⟩, ?_⟩⟩
  case refine_1 | refine_2 | refine_3 => intro l; cases l <;> decide
  all_goals decide

/-- A soft restart leaves the links that were ENABLED open at HUNT, and their monitors HUNTING (R23, R39). -/
theorem softRestartEffect_references {s : State} (h : ReferenceSound s) (src : Link) (wire : WireIn) :
    ReferenceSound (softRestartEffect src wire s) := by
  have hlink (l : Link) : ∃ tx : Tx, tx.emptied = true ∧
      (softRestartEffect src wire s).link l = { (s.link l).afterRestart wire with tx := tx } := by
    cases src <;> cases l
    case a.a | b.b => exact ⟨.idle, rfl, rfl⟩
    all_goals exact ⟨_, Tx.dropped_emptied .., rfl⟩
  have hen : (softRestartEffect src wire s).enabledLinks = s.enabledLinks := funext fun l => by
    obtain ⟨tx, -, he⟩ := hlink l
    rw [State.enabledLinks, he]
    rfl
  have hmon (l : Link) : (softRestartEffect src wire s).timebase.monitors.get l =
      freshMonitor (if s.enabledLinks l then .hunting else .down) := by cases l <;> rfl
  refine (referenceSound_iff _).2 ⟨fun l => ?_, hen ▸ ⟨⟨fun l => ?_, fun l => ?_, fun l => ?_, h.timebase.settings,
    show (0 : Nat) < 1000 by decide, fun _ => rfl, Nat.zero_le _⟩, fun ha => ?_⟩⟩
  · obtain ⟨tx, htx, he⟩ := hlink l
    obtain ⟨-, -, hset, hempty⟩ := h.link l
    rw [he]
    refine ⟨rfl, Nat.zero_le _, hset, fun hd => ?_⟩
    obtain ⟨-, -, -, -, -, h6, h7, -⟩ := hempty hd
    exact ⟨rfl, rfl, rfl, rfl, rfl, h6, h7, htx⟩
  · rw [hmon]
    exact freshMonitor_sound (by cases s.enabledLinks l <;> simp)
  · rw [hmon]
    cases s.enabledLinks l <;> simp [freshMonitor]
  · rw [hmon]
    refine ⟨fun ha => ?_, fun ha => ?_⟩
    · cases ha
    · cases he : s.enabledLinks l <;> simp [freshMonitor, he] at ha
  · cases ha

/-! ### The step (O50) -/

section

variable {s : State}

/-- What happens on an ENABLED link alone keeps the promises when it does so there. -/
theorem ReferenceSound.of_enabled (h : ReferenceSound s) {l : Link} {u : State}
    (hu : Receiving l s → ReferenceSound u) : ReferenceSound (if (s.link l).enabled then u else s) := by
  split
  · next he => exact hu ⟨h, he⟩
  · exact h

theorem byteReceived_references (h : ReferenceSound s) (l : Link) (c : RxChar) {t : State}
    (ht : execByteReceived l c s = .next t) : ReferenceSound t := by
  obtain rfl := Host.Outcome.next.inj ht
  refine h.of_enabled fun hr => ?_
  split
  · exact hr.endCharacter.sound
  · split
    · exact (hr.endCharacter.receiveByte _).sound
    · exact h
    · exact h

theorem characterFault_references (h : ReferenceSound s) (l : Link) (c : RxChar) {t : State}
    (ht : execCharacterFault l c s = .next t) : ReferenceSound t := by
  obtain rfl := Host.Outcome.next.inj ht
  refine h.of_enabled fun hr => ?_
  split
  · exact hr.endCharacter.sound
  · split
    · exact h
    · exact (hr.endCharacter.receiveFault _).sound
    · exact (hr.endCharacter.receiveFault _).sound

theorem leadExpiry_references (h : ReferenceSound s) (l : Link) {t : State} (ht : execLeadExpiry l s = .next t) :
    ReferenceSound t := by
  obtain rfl := Host.Outcome.next.inj ht
  split
  · next r htx => exact ((h.receiving_of_tx (by rw [htx]; rfl)).sendPoint r).sound
  all_goals exact h

theorem replyComplete_references (h : ReferenceSound s) (l : LinkAndWire) {t : State}
    (ht : execReplyComplete l s = .next t) : ReferenceSound t := by
  obtain rfl := Host.Outcome.next.inj ht
  split
  · next htx =>
    split
    · exact softRestartEffect_references h _ _
    · exact (h.receiving_of_tx (by rw [htx]; rfl)).endReply.sound
  all_goals exact h

/-- Every event keeps the promises. -/
theorem event_keeps_references {c : Instr} {t : State} (hc : sourceOf c = none) (h : ReferenceSound s)
    (ht : exec c s = .next t) : ReferenceSound t := by
  cases c <;> simp only [sourceOf, reduceCtorEq] at hc
  case byteReceived l c => exact byteReceived_references h l c ht
  case characterFault l c => exact characterFault_references h l c ht
  case leadExpiry l => exact leadExpiry_references h l ht
  case replyComplete l => exact replyComplete_references h l ht
  case pulse i => exact h.execPulse i ht
  all_goals obtain rfl := Host.Outcome.next.inj ht
  case powerOnReset pins => exact reset_references.congr rfl rfl
  case idle l => exact h.of_enabled fun hr => hr.receiveIdle.sound
  case tailExpiry l =>
    split
    · exact h.setTx_idle l
    · exact h
  case characterInProgressCompleted l =>
    split
    · exact h.setTx_idle l
    all_goals exact h
  case keyingStep pins => exact ((h.closeStep.openStep pins).takeWaiting .a).takeWaiting .b
  case flywheelWrap =>
    split
    · exact h.formWrap
    · exact h
  case missingSecond x => exact h.takeMissing x
  case assemblyCompletion => exact h.congr (by simp) (by simp)
  case lineFilterChange n => exact h.congr (by simp) (by simp)
  case strobeEnd k => exact h.congr (by simp) (by simp)
  case risingComplete | fallingComplete =>
    split
    · exact h
    · exact h.congr (by simp) (by simp)

end

/-- Settles O50: every command keeps the promises, and taking it from the queue does not touch them. -/
theorem stepKeepsReferences : Obligations.StepKeepsReferences := by
  intro s t h ht
  unfold step at ht
  split at ht
  · obtain rfl := Host.Outcome.next.inj ht
    exact h
  · next c rest _ =>
    have h' : ReferenceSound (s.withPending rest) := h
    cases hc : sourceOf c with
    | none => exact event_keeps_references hc h' ht
    | some src => exact request_keeps_references hc h' ht

end Sys2Proof.Machine

/-! PROOFS. Without rights the non-privileged link changes nothing outside its own link (O60): every handler of the list but
READ_STATUS's answers a request of such a link with the state as the take leaves it (R21, R22, R32 to R34). -/

namespace Sys2Proof.Machine

/-- A link that is not privileged, while nothing is granted (R31, R32). -/
structure Ungranted (src : Link) (s : State) : Prop where
  permissions : s.executor.permissions = 0
  notPrivileged : src ≠ s.executor.privileged

/-- What a request of a link may change at most: of its link, the queue's head and what a reply touches, and the last link
served (R26, R28). -/
def OwnLinkOnly (src : Link) (s t : State) : Prop :=
  ∃ ls : LinkState, t = (s.setLink src ls).withExecutor { s.executor with lastServed := t.executor.lastServed } ∧
    ls = { s.link src with queue := ls.queue, errors := ls.errors, quarantined := ls.quarantined, tx := ls.tx } ∧
    (ls.queue = (s.link src).queue ∨ ls.queue = (s.link src).queue.drop 1)

theorem OwnLinkOnly.refl (src : Link) (s : State) : OwnLinkOnly src s s :=
  ⟨s.link src, by rw [State.setLink_self]; rfl, rfl, .inl rfl⟩

theorem popTaken_ownLinkOnly (src : Link) (s : State) : OwnLinkOnly src s (popTaken src s) :=
  ⟨{ s.link src with queue := (s.link src).queue.drop 1 }, rfl, rfl, .inr rfl⟩

/-- A request answered with the state as the take leaves it concerns its own link only. -/
theorem finishTake_ownLinkOnly {src : Link} {s : State} {rq : Request} {an : Answer} (hsrc : rq.src = src)
    (hstate : an.state = popTaken src s) : OwnLinkOnly src s (finishTake rq an) := by
  obtain ⟨ls, he, hls⟩ := finishTake_cases rq an
  rw [hsrc, hstate] at he
  rw [hsrc, hstate, popTaken_link_same] at hls
  have hqueue : ls.queue = (s.link src).queue.drop 1 := by rw [hls]
  refine ⟨ls, ?_, by rw [hqueue]; exact hls, .inr hqueue⟩
  rw [he]
  simp [popTaken, State.setLink, State.withExecutor, State.withLinks]

section

variable {s : State} {rq : Request}

theorem Ungranted.not_permitted (h : Ungranted rq.src s) (c : PermClass) : permitted s rq.src c = false := by
  simp [permitted, hasBit, h.permissions, h.notPrivileged]

theorem Ungranted.popTaken {src : Link} (h : Ungranted src s) : Ungranted src (popTaken src s) :=
  ⟨h.permissions, h.notPrivileged⟩

theorem checked_state_of_ungranted (h : Ungranted rq.src s) (n : Nat) (c : PermClass) (own : Request → State → Answer) :
    (checked n c own rq s).state = s := by
  rcases checked_cases n c own rq s with ⟨-, he⟩ | ⟨-, -, he⟩ | ⟨-, hp, -⟩
  · rw [he]; rfl
  · rw [he]; rfl
  · rw [h.not_permitted] at hp; cases hp

theorem disableLinkAnswer_state_of_ungranted (h : Ungranted rq.src s) (wire : WireIn) :
    (disableLinkAnswer wire rq s).state = s := by
  unfold disableLinkAnswer
  split
  · rfl
  · split
    · rfl
    · rw [if_pos h.notPrivileged]
      rfl

theorem enableLinkAnswer_state_of_ungranted (h : Ungranted rq.src s) (wire : WireIn) :
    (enableLinkAnswer wire rq s).state = s := by
  unfold enableLinkAnswer
  split
  · rfl
  · split
    · rfl
    · rw [if_pos h.notPrivileged]
      rfl

theorem setPermissionsAnswer_state_of_ungranted (h : Ungranted rq.src s) : (setPermissionsAnswer rq s).state = s := by
  unfold setPermissionsAnswer
  dsimp only
  rw [if_neg h.notPrivileged]
  split <;> rfl

theorem writeMapAnswer_state_of_ungranted (h : Ungranted rq.src s) : (writeMapAnswer rq s).state = s := by
  unfold writeMapAnswer
  rw [h.not_permitted]
  split <;> rfl

theorem writeTestAnswer_state_of_ungranted (h : Ungranted rq.src s) : (writeTestAnswer rq s).state = s := by
  unfold writeTestAnswer
  rw [h.not_permitted]
  split <;> rfl

/-- No part of a CONTROL is kept (R34). -/
theorem controlAnswer_state_of_ungranted (h : Ungranted rq.src s) : (controlAnswer rq s).state = s := by
  have hkept (part : Nat) (t : State) (ht : t = s) (c : PermClass) : keptPart rq t part c = false := by
    rw [keptPart, ht, h.not_permitted, Bool.and_false]
  unfold controlAnswer
  split
  · rfl
  · simp [hkept]

/-- Every handler of the list but READ_STATUS's leaves the state as it is. -/
theorem row_state_of_ungranted (h : Ungranted rq.src s) {src : Link} {pins : PinIn} {wire : WireIn} {row : RequestRow}
    (hrow : row ∈ requestRows src pins wire) (hn : row.command ≠ .readStatus src) : (row.handler rq s).state = s := by
  have hchecked := checked_state_of_ungranted h
  have hlength {own : Request → State → Answer} (n : Nat) (ho : (own rq s).state = s) :
      (lengthChecked n own rq s).state = s := lengthChecked_state (P := (· = s)) n rfl ho
  have hread {own : Request → State → Answer} (n : Nat) (ho : own ∈ readAnswers) :
      (lengthChecked n own rq s).state = s := hlength n (readAnswers_state ho rq s)
  revert row
  simp only [requestRows, List.forall_mem_cons, List.not_mem_nil, IsEmpty.forall_iff, implies_true, and_true, hchecked,
    hlength _ (disableLinkAnswer_state_of_ungranted h wire), hlength _ (enableLinkAnswer_state_of_ungranted h wire),
    hlength _ (setPermissionsAnswer_state_of_ungranted h), writeMapAnswer_state_of_ungranted h,
    writeTestAnswer_state_of_ungranted h, ne_eq, not_true, true_and]
  refine ⟨fun _ => hread _ ?_, fun _ => hread _ ?_, fun _ => hread _ ?_, fun _ => hread _ ?_, fun _ => hread _ ?_,
    fun _ => hread _ ?_⟩
  all_goals simp [readAnswers]

end

/-- Settles O60, by the three kinds of request command: a row of the list, CONTROL and UNKNOWN_REQUEST. -/
theorem ungrantedLinkChangesNothing : Obligations.UngrantedLinkChangesNothing := by
  intro c s t src hc hstatus hperm hpriv ht
  have h : Ungranted src (popTaken src s) := ⟨hperm, hpriv⟩
  change OwnLinkOnly src s t
  rcases sourceOf_cases hc with ⟨pins, wire, row, hrow, rfl⟩ | hcontrol | rfl
  · rw [exec_row hrow] at ht
    obtain rfl := Host.Outcome.next.inj ht
    rcases takeNamed_cases row.name row.handler src s with he | ⟨rq, htakes, he⟩ <;> rw [he]
    · exact .refl src s
    · exact finishTake_ownLinkOnly htakes.src (row_state_of_ungranted (by rwa [htakes.src]) hrow hstatus)
  · obtain ⟨row, hrow⟩ := exec_control hcontrol
    rw [hrow] at ht
    obtain rfl := Host.Outcome.next.inj ht
    rcases takeControl_cases row src s with he | ⟨rq, htakes, he⟩ <;> rw [he]
    · exact .refl src s
    · exact finishTake_ownLinkOnly htakes.src (controlAnswer_state_of_ungranted (by rwa [htakes.src]))
  · obtain rfl := Host.Outcome.next.inj ht
    rcases takeUnknown_cases src s with he | he | ⟨rq, hsrc, he⟩ <;> rw [he]
    · exact .refl src s
    · exact popTaken_ownLinkOnly src s
    · exact finishTake_ownLinkOnly hsrc rfl

end Sys2Proof.Machine

/-! PROOFS. The header code (O9): an inverted code bit inverts the overall parity and moves the syndrome by the weight of its
position, and the 30 weights differ (R5, R6). With it, what parity and bits of a byte are (R1). -/

namespace Sys2Proof.Machine

/-! ### Parity of a list of bits -/

theorem oddOnes_cons (b : Bool) (bs : List Bool) : oddOnes (b :: bs) = (b ^^ oddOnes bs) := by
  have hacc : ∀ (bs : List Bool) (a : Bool), bs.foldl xor a = (a ^^ bs.foldl xor false) := by
    intro bs
    induction bs with
    | nil => simp
    | cons c cs ih =>
      intro a
      rw [List.foldl_cons, ih, List.foldl_cons, ih (false ^^ c), Bool.false_xor, Bool.xor_assoc]
  rw [oddOnes, List.foldl_cons, hacc, Bool.false_xor, oddOnes]

theorem oddOnes_append (as bs : List Bool) : oddOnes (as ++ bs) = (oddOnes as ^^ oddOnes bs) := by
  induction as with
  | nil => simp [oddOnes]
  | cons a as ih => rw [List.cons_append, oddOnes_cons, ih, oddOnes_cons, Bool.xor_assoc]

theorem oddOnes_singleton (b : Bool) : oddOnes [b] = b := by cases b <;> rfl

theorem oddOnes_eq_count (bs : List Bool) : oddOnes bs = decide (bs.countP id % 2 = 1) := by
  induction bs with
  | nil => rfl
  | cons b bs ih =>
    rw [oddOnes_cons, ih, List.countP_cons]
    cases b
    · simp
    · rcases Nat.mod_two_eq_zero_or_one (bs.countP id) with h | h <;> simp [h, Nat.add_mod]

/-- One bit inverted inverts the parity. -/
theorem oddOnes_modify_not {bs : List Bool} {i : Nat} (h : i < bs.length) : oddOnes (bs.modify i not) = !oddOnes bs := by
  induction bs generalizing i with
  | nil => simp at h
  | cons b bs ih =>
    cases i with
    | zero => rw [List.modify_zero_cons, oddOnes_cons, oddOnes_cons, Bool.not_xor]
    | succ i =>
      rw [List.modify_succ_cons, oddOnes_cons, oddOnes_cons, ih (by simpa using h), Bool.xor_not]

/-- The bits of a byte with bit k inverted. -/
theorem bitsOf_flip (b : Byte) (k : Nat) : bitsOf (b ^^^ byteOf (2 ^ k)) = (bitsOf b).modify k not := by
  refine List.ext_getElem (by simp [bitsOf]) fun j h1 h2 => ?_
  have hj : j < 8 := by simpa [bitsOf] using h1
  rw [List.getElem_modify]
  simp only [bitsOf, List.getElem_map, List.getElem_range, BitVec.getLsbD_xor, byteOf, BitVec.getLsbD_ofNat,
    Nat.testBit_two_pow, hj, decide_true, Bool.true_and]
  split
  · next hk => simp [hk]
  · next hk => simp [hk]

/-! ### The syndrome (R5, R6) -/

/-- The exclusive-or of the positions of the bits that are one. -/
def positionSum (positions : List Nat) (bits : List Bool) : Nat :=
  (positions.zip bits).foldl (fun acc pb => if pb.2 then acc ^^^ pb.1 else acc) 0

theorem checkBits_eq (h : Header) : checkBits h = positionSum codePositions (headerBits h) := rfl

theorem positionSum_cons (p : Nat) (ps : List Nat) (b : Bool) (bs : List Bool) :
    positionSum (p :: ps) (b :: bs) = (if b then p else 0) ^^^ positionSum ps bs := by
  have hacc : ∀ (l : List (Nat × Bool)) (a : Nat), l.foldl (fun acc pb => if pb.2 then acc ^^^ pb.1 else acc) a =
      a ^^^ l.foldl (fun acc pb => if pb.2 then acc ^^^ pb.1 else acc) 0 := by
    intro l
    induction l with
    | nil => simp
    | cons x xs ih =>
      intro a
      rw [List.foldl_cons, ih, List.foldl_cons, ih (if x.2 then 0 ^^^ x.1 else 0)]
      cases x.2 <;> simp [Nat.xor_assoc]
  rw [positionSum, List.zip_cons_cons, List.foldl_cons, hacc, Nat.zero_xor, positionSum]

theorem positionSum_lt {n : Nat} {ps : List Nat} (h : ∀ p ∈ ps, p < 2 ^ n) (bs : List Bool) : positionSum ps bs < 2 ^ n := by
  induction ps generalizing bs with
  | nil => exact Nat.two_pow_pos n
  | cons p ps ih =>
    cases bs with
    | nil => exact Nat.two_pow_pos n
    | cons b bs =>
      rw [List.forall_mem_cons] at h
      rw [positionSum_cons]
      refine Nat.xor_lt_two_pow ?_ (ih h.2 bs)
      split
      · exact h.1
      · exact Nat.two_pow_pos n

/-- One bit inverted moves the sum by its position. -/
theorem positionSum_modify_not {ps : List Nat} {bs : List Bool} {i : Nat} (hp : i < ps.length) (hb : i < bs.length) :
    positionSum ps (bs.modify i not) = positionSum ps bs ^^^ ps.getD i 0 := by
  induction ps generalizing bs i with
  | nil => simp at hp
  | cons p ps ih =>
    cases bs with
    | nil => simp at hb
    | cons b bs =>
      cases i with
      | zero =>
        rw [List.modify_zero_cons, positionSum_cons, positionSum_cons, List.getD_cons_zero]
        cases b <;> simp [Nat.xor_comm]
      | succ i =>
        rw [List.modify_succ_cons, positionSum_cons, positionSum_cons, List.getD_cons_succ,
          ih (by simpa using hp) (by simpa using hb), Nat.xor_assoc]

/-! ### An inverted code bit -/

@[simp] theorem bitsOf_length (b : Byte) : (bitsOf b).length = 8 := by simp [bitsOf]

@[simp] theorem headerBits_length (h : Header) : (headerBits h).length = 24 := by simp [headerBits]

theorem modify_append_of_lt {α : Type} (f : α → α) {as : List α} {i : Nat} (h : i < as.length) (bs : List α) :
    (as ++ bs).modify i f = as.modify i f ++ bs := by
  induction as generalizing i with
  | nil => simp at h
  | cons a as ih => cases i with
    | zero => rfl
    | succ i => rw [List.cons_append, List.modify_succ_cons, ih (by simpa using h)]; rfl

theorem modify_append_of_le {α : Type} (f : α → α) {as : List α} {i : Nat} (h : as.length ≤ i) (bs : List α) :
    (as ++ bs).modify i f = as ++ bs.modify (i - as.length) f := by
  induction as generalizing i with
  | nil => rfl
  | cons a as ih => cases i with
    | zero => simp at h
    | succ i => rw [List.cons_append, List.modify_succ_cons, ih (by simpa using h)]; simp

theorem headerBits_flip (h : Header) {i : Nat} (hi : i < 24) :
    headerBits (flipHeaderBit h i) = (headerBits h).modify i not := by
  unfold flipHeaderBit headerBits
  split
  · next h8 => rw [bitsOf_flip, List.append_assoc, List.append_assoc, modify_append_of_lt _ (by simpa using h8)]
  · next h8 =>
    split
    · next h16 =>
      rw [bitsOf_flip, List.append_assoc, List.append_assoc, modify_append_of_le _ (by simpa using h8),
        modify_append_of_lt _ (by simp; omega), bitsOf_length]
    · next h16 => rw [bitsOf_flip, modify_append_of_le _ (by simpa using h16), List.length_append, bitsOf_length, bitsOf_length]

theorem flipHeaderBit_flipHeaderBit (h : Header) (i : Nat) : flipHeaderBit (flipHeaderBit h i) i = h := by
  unfold flipHeaderBit
  repeat' split
  all_goals simp

/-- The overall parity of a received header (R6). -/
def overallParity (hc : Header × Byte) : Bool := oddOnes (headerBits hc.1 ++ (bitsOf hc.2).take 6)

/-- The syndrome of a received header (R6). -/
def syndrome (hc : Header × Byte) : Nat := (hc.2.toNat % 32) ^^^ checkBits hc.1

/-- What a code bit adds to the syndrome: its position, and 0 for c5 (R5). -/
def bitWeight (i : Nat) : Nat := if i < 24 then codePositions.getD i 0 else if i < 29 then 2 ^ (i - 24) else 0

/-- The judgement in terms of overall parity and syndrome (R6). -/
theorem judgeHeader_eq (hc : Header × Byte) :
    judgeHeader hc.1 hc.2 =
      if overallParity hc then
        if syndrome hc ∈ [0, 1, 2, 4, 8, 16] then .corrected hc.1
        else match codePositions.idxOf? (syndrome hc) with
          | some i => .corrected (flipHeaderBit hc.1 i)
          | none => .bad
      else if syndrome hc = 0 then .clean else .bad := rfl

theorem damage_of_header {i : Nat} (hi : i < 24) (hc : Header × Byte) : damage i hc = (flipHeaderBit hc.1 i, hc.2) := by
  simp [damage, hi]

theorem damage_of_check {i : Nat} (hi : ¬i < 24) (hc : Header × Byte) :
    damage i hc = (hc.1, hc.2 ^^^ byteOf (2 ^ (i - 24))) := by
  simp [damage, hi]

theorem overallParity_damage {i : Nat} (hi : i < 30) (hc : Header × Byte) :
    overallParity (damage i hc) = !overallParity hc := by
  by_cases h24 : i < 24
  · rw [damage_of_header h24, overallParity, headerBits_flip _ h24, oddOnes_append, oddOnes_modify_not (by simpa using h24),
      overallParity, oddOnes_append, Bool.not_xor]
  · have htake : (bitsOf (hc.2 ^^^ byteOf (2 ^ (i - 24)))).take 6 = ((bitsOf hc.2).take 6).modify (i - 24) not := by
      rw [bitsOf_flip, List.take_modify]
    rw [damage_of_check h24, overallParity, htake, oddOnes_append, oddOnes_modify_not (by simp; omega), overallParity,
      oddOnes_append, Bool.xor_not]

theorem syndrome_damage {i : Nat} (hi : i < 30) (hc : Header × Byte) :
    syndrome (damage i hc) = syndrome hc ^^^ bitWeight i := by
  by_cases h24 : i < 24
  · rw [damage_of_header h24, syndrome, checkBits_eq, headerBits_flip _ h24,
      positionSum_modify_not (by simpa [codePositions] using h24) (by simpa using h24), syndrome, checkBits_eq, bitWeight,
      if_pos h24, Nat.xor_assoc]
  · have hpow : (byteOf (2 ^ (i - 24))).toNat % 2 ^ 5 = bitWeight i := by
      have h6 : i - 24 < 6 := by omega
      obtain ⟨k, rfl⟩ : ∃ k, i = k + 24 := ⟨i - 24, by omega⟩
      have hk : k < 6 := by omega
      rw [Nat.add_sub_cancel]
      clear h24 h6 hi
      revert k
      decide
    have hmod : (hc.2 ^^^ byteOf (2 ^ (i - 24))).toNat % 32 = (hc.2.toNat % 32) ^^^ bitWeight i := by
      rw [BitVec.toNat_xor, ← hpow]
      exact Nat.xor_mod_two_pow (n := 5)
    rw [damage_of_check h24, syndrome, hmod, syndrome, Nat.xor_assoc, Nat.xor_assoc, Nat.xor_comm (bitWeight i)]

/-! ### A header with its own check byte (R5) -/

theorem checkBits_lt (h : Header) : checkBits h < 32 :=
  positionSum_lt (n := 5) (by decide) (headerBits h)

/-- The low six bits of a check byte are c0 to c4 and c5. -/
theorem checkByte_bits : ∀ c < 32, ∀ c5 : Bool,
    (bitsOf (byteOf (c + 32 * c5.toNat))).take 6 = (bitsOf (byteOf c)).take 5 ++ [c5] ∧
      (byteOf (c + 32 * c5.toNat)).toNat % 32 = c := by decide

theorem own_check (h : Header) : overallParity (h, checkByte h) = false ∧ syndrome (h, checkByte h) = 0 := by
  obtain ⟨hbits, hmod⟩ := checkByte_bits (checkBits h) (checkBits_lt h)
    (oddOnes (headerBits h ++ (bitsOf (byteOf (checkBits h))).take 5))
  constructor
  · rw [overallParity, checkByte]
    dsimp only
    rw [hbits, ← List.append_assoc, oddOnes_append, oddOnes_singleton, Bool.xor_self]
  · rw [syndrome, checkByte]
    dsimp only
    rw [hmod, Nat.xor_self]

/-! ### The weights (R5) -/

/-- A header bit's weight is no check bit's weight, and names the header bit. -/
theorem bitWeight_header : ∀ i < 24, bitWeight i ∉ [0, 1, 2, 4, 8, 16] ∧ codePositions.idxOf? (bitWeight i) = some i := by
  decide

theorem bitWeight_check : ∀ i < 30, ¬i < 24 → bitWeight i ∈ [0, 1, 2, 4, 8, 16] := by decide

theorem bitWeight_ne : ∀ j < 30, ∀ i < j, bitWeight j ^^^ bitWeight i ≠ 0 := by decide

/-- Bits 6 and 7 of the check byte are ignored (R6). -/
theorem judgeHeader_high_bit (h : Header) (check : Byte) {k : Nat} (hk : k = 6 ∨ k = 7) :
    judgeHeader h (check ^^^ byteOf (2 ^ k)) = judgeHeader h check := by
  have htake : (bitsOf (check ^^^ byteOf (2 ^ k))).take 6 = (bitsOf check).take 6 := by
    rw [bitsOf_flip, List.take_modify, List.modify_eq_self (by rcases hk with rfl | rfl <;> simp)]
  have hmod : (check ^^^ byteOf (2 ^ k)).toNat % 32 = check.toNat % 32 := by
    rw [BitVec.toNat_xor, show 32 = 2 ^ 5 from rfl, Nat.xor_mod_two_pow]
    rcases hk with rfl | rfl <;> simp [byteOf]
  simp only [judgeHeader, htake, hmod]

/-- Settles O9. With its own check byte parity and syndrome are 0; each inverted bit inverts the parity and adds its weight,
which differs from bit to bit and is not 0 for two bits together. -/
theorem headerCodeCorrectsOneDetectsTwo : Obligations.HeaderCodeCorrectsOneDetectsTwo := by
  intro h
  obtain ⟨hparity, hsyndrome⟩ := own_check h
  refine ⟨?_, fun i hi => ?_, fun j hj i hi => ?_, fun check => ?_⟩
  · rw [show judgeHeader h (checkByte h) = _ from judgeHeader_eq (h, checkByte h), hparity, hsyndrome]
    rfl
  · have hp : overallParity (damage i (h, checkByte h)) = true := by rw [overallParity_damage hi, hparity]; rfl
    have hs : syndrome (damage i (h, checkByte h)) = bitWeight i := by
      rw [syndrome_damage hi, hsyndrome, Nat.zero_xor]
    dsimp only
    rw [judgeHeader_eq, hp, hs, if_pos rfl]
    by_cases h24 : i < 24
    · obtain ⟨hnot, hidx⟩ := bitWeight_header i h24
      rw [if_neg hnot, hidx, damage_of_header h24]
      exact congrArg _ (flipHeaderBit_flipHeaderBit h i)
    · rw [if_pos (bitWeight_check i hi h24), damage_of_check h24]
  · have hi30 : i < 30 := hi.trans hj
    have hp : overallParity (damage i (damage j (h, checkByte h))) = false := by
      rw [overallParity_damage hi30, overallParity_damage hj, hparity]
      rfl
    have hs : syndrome (damage i (damage j (h, checkByte h))) ≠ 0 := by
      rw [syndrome_damage hi30, syndrome_damage hj, hsyndrome, Nat.zero_xor]
      exact bitWeight_ne j hj i hi
    dsimp only
    rw [judgeHeader_eq, hp, if_neg (by decide), if_neg hs]
  · rw [show (0x40 : Byte) = byteOf (2 ^ 6) by decide, show (0x80 : Byte) = byteOf (2 ^ 7) by decide]
    exact ⟨judgeHeader_high_bit h check (.inl rfl), judgeHeader_high_bit h check (.inr rfl)⟩

end Sys2Proof.Machine

/-! PROOFS. The reference receivers (O5 to O8, O10): what a character is, what the receive state machine does with it, one equation
per receive state, and with these a whole frame sent character by character (R1 to R17). -/

namespace Sys2Proof.Machine

/-! ### Recording an error (R13, R15) -/

theorem hasBit_or_onlyBit (v : BitVec 16) (k : Nat) {i : Nat} (hi : i < 16) :
    hasBit (v ||| onlyBit k) i = (hasBit v i || i == k) := by
  have hbit : (onlyBit k).getLsbD i = (i == k) := by
    rw [onlyBit, BitVec.getLsbD_ofNat, Nat.testBit_two_pow, decide_eq_true hi, Bool.true_and]
    exact decide_eq_decide.2 eq_comm
  rw [hasBit, hasBit, BitVec.getLsbD_or, hbit]

/-- The kinds of error that quarantine (R15). -/
theorem ErrKind.quarantines_iff (k : ErrKind) :
    k.quarantines = true ↔ k = .framing ∨ k = .parity ∨ k = .checksumBad ∨ k = .headerBad ∨ k = .truncated := by
  cases k <;> decide

/-- The kinds of error that discard no frame (R13). -/
theorem ErrKind.discards_eq_false_iff (k : ErrKind) :
    k.discards = false ↔ k = .headerCorrected ∨ k = .epochOverwritten ∨ k = .epochRange := by
  cases k <;> decide

/-- Settles O5, from what an error does to its link and to the counter. -/
theorem errorIsRecorded : Obligations.ErrorIsRecorded := by
  intro l k s
  have hcount : (recordError l k s).status.framesDiscarded =
      if k.discards then s.status.framesDiscarded.set l (countUp (s.status.framesDiscarded.get l))
      else s.status.framesDiscarded := by rw [recordError_status]
  refine ⟨fun i hi => ?_, ?_, ?_, ?_, ?_⟩
  · rw [recordError_link_same]
    exact hasBit_or_onlyBit _ _ hi
  · rw [recordError_link_same, ← ErrKind.quarantines_iff]
    simp [LinkState.recordError, and_comm]
  · simp only [hcount, ← ErrKind.discards_eq_false_iff]
    cases k.discards
    · rfl
    · simp [countUp_eq]
  · rw [recordError_status]
    cases k.discards <;> simp
  · rw [recordError_link_same]
    refine State.eq_of_fields ?_ ?_ ?_ ?_ ?_ ?_ ?_ ?_ ?_ ?_ ?_ ?_ ?_ <;> simp [recordError, LinkState.recordError]

/-! ### What a character is (R1) -/

theorem oddOnes_char (c : RxChar) :
    oddOnes (bitsOf c.data ++ [c.parityBit]) =
      decide (((List.range 8).countP (c.data.getLsbD ·) + c.parityBit.toNat) % 2 = 1) := by
  have hdata : (bitsOf c.data).countP id = (List.range 8).countP (c.data.getLsbD ·) := by
    rw [bitsOf, List.countP_map]
    rfl
  rw [oddOnes_eq_count, List.countP_append, hdata]
  cases c.parityBit <;> rfl

theorem judgeChar_low_stop {c : RxChar} (h : c.stopBit = false) (p : Parity) : judgeChar p c = .framing := by
  simp [judgeChar, h]

theorem judgeChar_none {c : RxChar} (h : c.stopBit = true) : judgeChar .none c = .byte c.data := by simp [judgeChar, h]

theorem judgeChar_even {c : RxChar} (h : c.stopBit = true) :
    judgeChar .even c = if oddOnes (bitsOf c.data ++ [c.parityBit]) then .parity else .byte c.data := by simp [judgeChar, h]

theorem judgeChar_odd {c : RxChar} (h : c.stopBit = true) :
    judgeChar .odd c = if oddOnes (bitsOf c.data ++ [c.parityBit]) then .byte c.data else .parity := by simp [judgeChar, h]

/-- A character sent without fault is judged to be its byte (R1). -/
theorem judgeChar_goodChar (p : Parity) (b : Byte) : judgeChar p (goodChar p b) = .byte b := by
  cases p
  · exact judgeChar_none rfl
  · simp [judgeChar_even, goodChar, oddOnes_append, oddOnes_singleton]
  · simp [judgeChar_odd, goodChar, oddOnes_append, oddOnes_singleton]

/-! ### A character by the receive state (R4, R8, R10) -/

section

variable {l : Link} {s : State} {b : Byte}

theorem receiveByte_hunt (h : (s.link l).rx = .hunt) :
    receiveByte l b s = if b = 0xC3 then setRx l (.header []) s else s := by
  unfold receiveByte
  rw [h]
  rfl

theorem receiveByte_header {got : List Byte} (h : (s.link l).rx = .header got) (hlen : got.length < 3) :
    receiveByte l b s = setRx l (.header (got ++ [b])) s := by
  unfold receiveByte
  rw [h]
  rcases got with _ | ⟨x, _ | ⟨y, _ | ⟨z, rest⟩⟩⟩
  · rfl
  · rfl
  · rfl
  · exact absurd hlen (by simp only [List.length_cons]; omega)

theorem receiveByte_check {a k n : Byte} (h : (s.link l).rx = .header [a, k, n]) :
    receiveByte l b s = checkHeader l { address := a, kind := k, length := n } b s := by simp [receiveByte, h]

theorem receiveByte_muted (h : (s.link l).rx = .muted) : receiveByte l b s = s := by simp [receiveByte, h]

variable {hd : Header} {check : Byte} {got : List Byte}

theorem receiveByte_payload (h : (s.link l).rx = .payload hd check got) (hlen : got.length < hd.length.toNat + 1) :
    receiveByte l b s = setRx l (.payload hd check (got ++ [b])) s := by
  have h1 : frameComplete hd got = false := by simp [frameComplete]; omega
  have h2 : frameComplete hd (got ++ [b]) = false := by simp [frameComplete]; omega
  simp [receiveByte, h, h1, storePayload, h2]

/-- The second CRC byte brings the check of the CRC (R8, R9). -/
theorem receiveByte_last (h : (s.link l).rx = .payload hd check got) (hlen : got.length = hd.length.toNat + 1) :
    receiveByte l b s =
      if crcBytes hd (got.take hd.length.toNat) = (got ++ [b]).drop hd.length.toNat then
        setRx l (.payload hd check (got ++ [b])) s
      else muteWith l .checksumBad s := by
  have h1 : frameComplete hd got = false := by simp [frameComplete]; omega
  have h2 : frameComplete hd (got ++ [b]) = true := by simp [frameComplete]; omega
  have htake : (got ++ [b]).take hd.length.toNat = got.take hd.length.toNat := by
    rw [List.take_append_of_le_length (by omega)]
  unfold receiveByte storePayload
  rw [h]
  dsimp only
  rw [h1, h2, htake, Bool.true_and, if_neg (by decide)]
  split
  · next hne => rw [if_neg (by simpa using hne)]
  · next heq => rw [if_pos (by simpa using heq)]

theorem receiveByte_over (h : (s.link l).rx = .payload hd check got) (hlen : hd.length.toNat + 2 ≤ got.length) :
    receiveByte l b s = muteWith l .lengthMismatch s := by
  simp [receiveByte, h, frameComplete, hlen]

end

/-- What O6 says a taken character without fault does, from a receive state. -/
theorem execByteReceived_of_byte {l : Link} {s : State} {c : RxChar} {b : Byte} (he : (s.link l).enabled = true)
    (hs : (s.link l).skipping = false) (hb : judgeChar (s.link l).charParity c = .byte b) {t : State}
    (ht : receiveByte l b (endCharacter l s) = t) : exec (.byteReceived l c) s = .next t :=
  ht ▸ execByteReceived_taken he hs hb

theorem execCharacterFault_taken {l : Link} {s : State} {c : RxChar} {k : ErrKind} (he : (s.link l).enabled = true)
    (hs : (s.link l).skipping = false)
    (hk : (judgeChar (s.link l).charParity c = .framing ∧ k = .framing) ∨
      (judgeChar (s.link l).charParity c = .parity ∧ k = .parity)) :
    exec (.characterFault l c) s = .next (receiveFault l k (endCharacter l s)) := by
  change execCharacterFault l c s = _
  unfold execCharacterFault
  rw [if_pos he, if_neg (by simp [hs])]
  rcases hk with ⟨hj, rfl⟩ | ⟨hj, rfl⟩ <;> rw [hj]

/-- The end of a character leaves the receive state as it is. -/
theorem endCharacter_rx (l : Link) (s : State) : ((endCharacter l s).link l).rx = (s.link l).rx := by simp

/-- Settles O6: a character's judgement by its number of ones, and its effect by the receive state. -/
theorem charactersByReceiveState : Obligations.CharactersByReceiveState := by
  refine ⟨fun c => ⟨fun h p => judgeChar_low_stop h p, fun h => ⟨judgeChar_none h, ?_, ?_⟩⟩,
    fun l c s he =>
      ⟨fun hs => ⟨execByteReceived_skipping he hs c, execCharacterFault_skipping he hs c⟩, fun hs => ⟨?_, ?_⟩⟩⟩
  · rw [judgeChar_even h, oddOnes_char]
    simp
  · rw [judgeChar_odd h, oddOnes_char]
    split <;> split <;> simp_all
  · intro b hb
    have hrx := endCharacter_rx l s
    refine ⟨fun h => ?_, fun got h hl => ?_, fun hd check got h hl => ?_, fun hd check got h hl => ?_,
      fun hd check got h hl => ?_, fun h => ?_⟩ <;> refine execByteReceived_of_byte he hs hb ?_ <;> rw [h] at hrx
    · exact receiveByte_hunt hrx
    · exact receiveByte_header hrx hl
    · exact receiveByte_payload hrx hl
    · exact receiveByte_last hrx hl
    · exact receiveByte_over hrx hl
    · exact receiveByte_muted hrx
  · intro k hk
    rw [execCharacterFault_taken he hs hk]
    have hrx := endCharacter_rx l s
    refine ⟨fun h => ?_, fun h => ?_⟩
    · rcases h with h | h <;> rw [receiveFault, hrx, h] <;> rfl
    · rcases h with ⟨got, h⟩ | ⟨hd, check, got, h⟩ <;> rw [receiveFault, hrx, h] <;> rfl

/-! ### The header check and the filters (R6, R7) -/

section

variable {l : Link} {s : State} {h : Header} {check : Byte}

theorem filterFrame_unknown (hk : (h.kind ≠ 1 ∧ h.kind ≠ 2 ∧ h.kind ≠ 3) ∨ (h.kind = 1 ∧ h.address ≠ 0)) :
    filterFrame l h check s = muteWith l .unknownKind s := by
  unfold filterFrame kindEpoch kindRequest kindFiller
  exact if_pos hk

theorem filterFrame_known (hk : (h.kind = 1 ∧ h.address = 0) ∨ h.kind = 2 ∨ h.kind = 3) :
    filterFrame l h check s =
      if 240 < h.length.toNat ∨ (h.kind = 1 ∧ h.length ≠ 7) then muteWith l .lengthMismatch s
      else setRx l (.payload h check []) s := by
  unfold filterFrame kindEpoch kindRequest kindFiller
  refine if_neg ?_
  rintro (⟨h1, h2, h3⟩ | ⟨h1, h2⟩)
  · rcases hk with ⟨hk, -⟩ | hk | hk
    · exact h1 hk
    · exact h2 hk
    · exact h3 hk
  · rcases hk with ⟨-, hk⟩ | hk | hk
    · exact h2 hk
    · exact absurd (h1.symm.trans hk) (by decide)
    · exact absurd (h1.symm.trans hk) (by decide)

theorem filterAddress_other {corrected : Bool} (ha : h.address ≠ 0 ∧ h.address.toNat ≠ (s.link l).settings.node) :
    filterAddress l h corrected check s = setRx l .muted s := by
  unfold filterAddress
  exact if_pos ha

theorem filterAddress_own {corrected : Bool} (ha : h.address = 0 ∨ h.address.toNat = (s.link l).settings.node) :
    filterAddress l h corrected check s =
      filterFrame l h check (if corrected then recordError l .headerCorrected s else s) := by
  unfold filterAddress
  exact if_neg fun hn => ha.elim hn.1 hn.2

theorem checkHeader_bad (hj : judgeHeader h check = .bad) : checkHeader l h check s = muteWith l .headerBad s := by
  unfold checkHeader
  rw [hj]

/-- A good or corrected header goes through the address filter (R6, R7). -/
theorem checkHeader_passed {h' : Header} {corrected : Bool}
    (hj : judgeHeader h check = if corrected then .corrected h' else .clean) (hclean : corrected = false → h' = h) :
    checkHeader l h check s = filterAddress l h' corrected check s := by
  unfold checkHeader
  rw [hj]
  cases corrected
  · rw [hclean rfl]
    rfl
  · rfl

end

/-- Settles O7, filter by filter in R7's order. -/
theorem headersAreFiltered : Obligations.HeadersAreFiltered := by
  intro l c s a k n check h fixed he hs hj hrx s0
  have hnode : (s0.link l).settings.node = (s.link l).settings.node := by simp [s0]
  have htaken {t : State} (ht : checkHeader l { address := a, kind := k, length := n } check s0 = t) :
      exec (.byteReceived l c) s = .next t :=
    execByteReceived_of_byte he hs hj ((receiveByte_check ((endCharacter_rx l s).trans hrx)).trans ht)
  refine ⟨fun hbad => htaken (checkHeader_bad hbad), fun hpass hclean => ⟨fun ha => ?_, fun ha => ⟨fun hk => ?_, fun hk =>
    ⟨fun hlen => ?_, fun hlen => ?_⟩⟩⟩⟩ <;> refine htaken ((checkHeader_passed hpass hclean).trans ?_)
  · exact filterAddress_other (hnode ▸ ha)
  all_goals rw [filterAddress_own (hnode ▸ ha)]
  · exact filterFrame_unknown hk
  · rw [filterFrame_known hk, if_pos hlen]
    rfl
  · rw [filterFrame_known hk, if_neg]
    rintro (hover | ⟨h1, h7⟩)
    · omega
    · exact h7 (hlen.2 h1)

end Sys2Proof.Machine

/-! PROOFS. Frames at idle (O8) and whole frames (O10): idle by the receive state and the kind of the frame, and a frame's bytes
taken one after the other from HUNT (R2, R4 to R12, R17). -/

namespace Sys2Proof.Machine

/-! ### Idle by the receive state and the kind (R2, R9 to R12, R17) -/

section

variable {l : Link} {s : State}

theorem exec_idle (he : (s.link l).enabled = true) : exec (.idle l) s = .next (receiveIdle l s) := by
  change execIdle l s = _
  rw [execIdle, if_pos he]

theorem receiveIdle_hunt (h : (s.link l).rx = .hunt) : receiveIdle l s = s := by rw [receiveIdle, h]

theorem receiveIdle_muted (h : (s.link l).rx = .muted) : receiveIdle l s = setRx l .hunt s := by rw [receiveIdle, h]

theorem receiveIdle_header {got : List Byte} (h : (s.link l).rx = .header got) :
    receiveIdle l s = setRx l .hunt (recordError l .truncated s) := by rw [receiveIdle, h]

variable {hd : Header} {check : Byte} {got : List Byte}

theorem receiveIdle_short (h : (s.link l).rx = .payload hd check got) (hlen : got.length < hd.length.toNat + 2) :
    receiveIdle l s = setRx l .hunt (recordError l .truncated s) := by
  rw [receiveIdle, h]
  exact if_neg (by simp [frameComplete]; omega)

theorem receiveIdle_complete (h : (s.link l).rx = .payload hd check got) (hlen : hd.length.toNat + 2 ≤ got.length) :
    receiveIdle l s = takeFrame l hd (got.take hd.length.toNat) (setRx l .hunt s) := by
  rw [receiveIdle, h]
  exact if_pos (by simpa [frameComplete] using hlen)

variable {payload : List Byte}

theorem takeFrame_epoch (hk : hd.kind = 1) :
    takeFrame l hd payload s =
      (let t := if (s.link l).latch = none then s else recordError l .epochOverwritten s
       t.setLink l { t.link l with latch := some (epochOf payload) }) := by
  unfold takeFrame kindEpoch
  rw [if_pos hk]
  cases hl : (s.link l).latch <;> simp [takeEpoch, hl]

theorem takeFrame_request (hk : hd.kind = 2) :
    takeFrame l hd payload s = takeRequestFrame l { address := hd.address, payload := payload } s := by
  unfold takeFrame kindEpoch kindRequest
  rw [if_neg (by rw [hk]; decide), if_pos hk]

theorem takeFrame_filler (hk : hd.kind = 3) : takeFrame l hd payload s = s := by
  unfold takeFrame kindEpoch kindRequest
  rw [if_neg (by rw [hk]; decide), if_neg (by rw [hk]; decide)]

variable {f : ReqFrame}

theorem takeRequestFrame_dropped (h : (s.link l).quarantined = true ∧ f.payload.head? ≠ some 0x26) :
    takeRequestFrame l f s = recordError l .droppedQuarantined s := by
  unfold takeRequestFrame readStatusCode
  exact if_pos h

/-- A request frame that quarantine lets in is queued while the queue holds fewer than 4 (R12, R17). -/
theorem takeRequestFrame_admitted (h : (s.link l).quarantined = false ∨ f.payload.head? = some 0x26) :
    takeRequestFrame l f s =
      if 4 ≤ (s.link l).queue.length then recordError l .queueOverrun s
      else s.setLink l { s.link l with queue := (s.link l).queue ++ [f] } := by
  unfold takeRequestFrame readStatusCode
  refine if_neg ?_
  rintro ⟨hq, hp⟩
  rcases h with h | h
  · rw [h] at hq; cases hq
  · exact hp h

end

/-- Settles O8, by the receive state and, for a complete frame, by its kind. -/
theorem idleTakesFrames : Obligations.IdleTakesFrames := by
  intro l s he
  rw [exec_idle he]
  refine ⟨fun h => by rw [receiveIdle_hunt h], fun h => by rw [receiveIdle_muted h],
    fun got h => by rw [receiveIdle_header h], fun hd check got h => ⟨fun hlen => by rw [receiveIdle_short h hlen],
    fun hlen => ?_⟩⟩
  have hlink : (setRx l .hunt s).link l = { s.link l with rx := .hunt } := setRx_link_same ..
  rw [receiveIdle_complete h hlen]
  refine ⟨fun hk => ?_, fun hk => ?_, fun hk => ?_⟩
  · rw [takeFrame_epoch hk, hlink]
  · rw [takeFrame_filler hk]
  · rw [takeFrame_request hk]
    refine ⟨fun hq => ?_, fun hq => ?_⟩
    · rw [takeRequestFrame_dropped (by rw [hlink]; exact hq)]
    · rw [takeRequestFrame_admitted (by rw [hlink]; exact hq), hlink]
      exact ⟨fun hfull => by rw [if_pos hfull], fun hfree => by rw [if_neg (Nat.not_le.2 hfree)]⟩

/-! ### A frame byte by byte (R4 to R9) -/

/-- An ENABLED link with no character under way at a change of parity or an enabling (R20, R22). -/
structure Settled (l : Link) (s : State) : Prop where
  enabled : (s.link l).enabled = true
  oldParity : (s.link l).oldParity = none
  skipping : (s.link l).skipping = false

@[simp] theorem setRx_setRx (l : Link) (a b : RxState) (s : State) : setRx l a (setRx l b s) = setRx l a s := by
  simp [setRx]

theorem setRx_of_rx {l : Link} {rx : RxState} {s : State} (h : (s.link l).rx = rx) : setRx l rx s = s := by
  rw [setRx, ← h]
  exact State.setLink_self ..

section

variable {l : Link} {s : State}

theorem Settled.setRx (h : Settled l s) (rx : RxState) : Settled l (setRx l rx s) := by
  refine ⟨?_, ?_, ?_⟩ <;> rw [setRx_link_same]
  · exact h.enabled
  · exact h.oldParity
  · exact h.skipping

/-- A character sent without fault under the parity in force is taken as its byte. -/
theorem Settled.exec_goodChar (h : Settled l s) (b : Byte) :
    exec (.byteReceived l (goodChar (s.link l).settings.parity b)) s = .next (receiveByte l b s) := by
  have hparity : (s.link l).charParity = (s.link l).settings.parity := by simp [LinkState.charParity, h.oldParity]
  refine execByteReceived_of_byte h.enabled h.skipping (b := b) ?_ ?_
  · rw [hparity]
    exact judgeChar_goodChar _ b
  · rw [endCharacter_of_none h.oldParity h.skipping]

/-- The commands of a run of bytes sent without fault. -/
def sendBytes (l : Link) (p : Parity) (bytes : List Byte) : List Instr :=
  bytes.map fun b => .byteReceived l (goodChar p b)

/-- One byte more in front of the commands that follow, from a receive state of the same link. -/
theorem Settled.execAll_cons (h : Settled l s) (rx rx' : RxState) (b : Byte) (rest : List Instr)
    (hb : receiveByte l b (Machine.setRx l rx s) = Machine.setRx l rx' s) :
    execAll (.byteReceived l (goodChar (s.link l).settings.parity b) :: rest) (Machine.setRx l rx s) =
      execAll rest (Machine.setRx l rx' s) := by
  have hset : ((Machine.setRx l rx s).link l).settings = (s.link l).settings := by rw [setRx_link_same]
  have hexec := (h.setRx rx).exec_goodChar b
  rw [hset, hb] at hexec
  rw [execAll, hexec]

/-- Bytes that leave the frame short are stored one after the other (R8). -/
theorem Settled.execAll_payload (h : Settled l s) (hd : Header) (check : Byte) (rest : List Instr) (bytes got : List Byte)
    (hlen : got.length + bytes.length ≤ hd.length.toNat + 1) :
    execAll (sendBytes l (s.link l).settings.parity bytes ++ rest) (Machine.setRx l (.payload hd check got) s) =
      execAll rest (Machine.setRx l (.payload hd check (got ++ bytes)) s) := by
  induction bytes generalizing got with
  | nil => simp [sendBytes]
  | cons b bytes ih =>
    rw [List.length_cons] at hlen
    have hb : receiveByte l b (Machine.setRx l (.payload hd check got) s) =
        Machine.setRx l (.payload hd check (got ++ [b])) s := by
      rw [receiveByte_payload (by rw [setRx_link_same]) (by omega), setRx_setRx]
    have hnext := ih (got ++ [b]) (by rw [List.length_append, List.length_singleton]; omega)
    rw [List.append_assoc, List.singleton_append] at hnext
    exact (h.execAll_cons _ _ b _ hb).trans hnext

/-- A header for this node or for all, of a known kind and a fitting length, passes every filter (R7). -/
theorem filterAddress_passed {hd : Header} {check : Byte}
    (ha : hd.address = 0 ∨ hd.address.toNat = (s.link l).settings.node)
    (hk : (hd.kind = 1 ∧ hd.address = 0 ∧ hd.length = 7) ∨ hd.kind = 2 ∨ hd.kind = 3) (hlen : hd.length.toNat ≤ 240) :
    filterAddress l hd false check s = Machine.setRx l (.payload hd check []) s := by
  have hkind : (hd.kind = 1 ∧ hd.address = 0) ∨ hd.kind = 2 ∨ hd.kind = 3 := hk.imp_left fun h => ⟨h.1, h.2.1⟩
  rw [filterAddress_own ha, if_neg (by decide), filterFrame_known hkind, if_neg]
  rintro (hover | ⟨h1, h7⟩)
  · omega
  · rcases hk with ⟨-, -, h⟩ | h | h
    · exact h7 h
    · exact absurd (h1.symm.trans h) (by decide)
    · exact absurd (h1.symm.trans h) (by decide)

/-- The header of a frame as it is sent (section 1.2). -/
abbrev frameHeader (address kind : Byte) (payload : List Byte) : Header :=
  { address := address, kind := kind, length := byteOf payload.length }

theorem byteOf_toNat {n : Nat} (h : n < 256) : (byteOf n).toNat = n := by
  rw [byteOf, BitVec.toNat_ofNat]
  exact Nat.mod_eq_of_lt h

/-- A frame that passes the filters stands whole in PAYLOAD when its last byte has come (R4 to R9). -/
theorem Settled.execAll_frame (h : Settled l s) (hrx : (s.link l).rx = .hunt) {address kind : Byte} {payload : List Byte}
    (hlen : payload.length ≤ 240) (ha : address = 0 ∨ address.toNat = (s.link l).settings.node)
    (hk : (kind = 1 ∧ address = 0 ∧ payload.length = 7) ∨ kind = 2 ∨ kind = 3) (rest : List Instr) :
    let hd := frameHeader address kind payload
    execAll (sendBytes l (s.link l).settings.parity (encodeFrame address kind payload) ++ rest) s =
      execAll rest (Machine.setRx l (.payload hd (checkByte hd) (payload ++ crcBytes hd payload)) s) := by
  intro hd
  have hlength : hd.length.toNat = payload.length := byteOf_toNat (by omega)
  have hheader (got : List Byte) (b : Byte) (h3 : got.length < 3) :
      receiveByte l b (Machine.setRx l (.header got) s) = Machine.setRx l (.header (got ++ [b])) s := by
    rw [receiveByte_header (by rw [setRx_link_same]) h3, setRx_setRx]
  have hstart : receiveByte l delimiter (Machine.setRx l .hunt s) = Machine.setRx l (.header []) s := by
    rw [receiveByte_hunt (by rw [setRx_link_same]), if_pos (by decide), setRx_setRx]
  have hcheck : receiveByte l (checkByte hd) (Machine.setRx l (.header [address, kind, byteOf payload.length]) s) =
      Machine.setRx l (.payload hd (checkByte hd) []) s := by
    have hclean : judgeHeader hd (checkByte hd) = .clean := (headerCodeCorrectsOneDetectsTwo hd).1
    have hlen7 : (kind = 1 ∧ address = 0 ∧ byteOf payload.length = 7) ∨ kind = 2 ∨ kind = 3 :=
      hk.imp_left fun ⟨h1, h2, h3⟩ => ⟨h1, h2, by rw [h3]; rfl⟩
    rw [receiveByte_check (by rw [setRx_link_same]), checkHeader_passed (corrected := false) (h' := hd) hclean fun _ => rfl,
      filterAddress_passed (by rw [setRx_link_same]; exact ha) hlen7 (by omega), setRx_setRx]
  obtain ⟨c1, c2, hcrc⟩ : ∃ c1 c2, crcBytes hd payload = [c1, c2] := ⟨_, _, rfl⟩
  have hlast : receiveByte l c2 (Machine.setRx l (.payload hd (checkByte hd) (payload ++ [c1])) s) =
      Machine.setRx l (.payload hd (checkByte hd) (payload ++ [c1, c2])) s := by
    have hgood : crcBytes hd ((payload ++ [c1]).take hd.length.toNat) = (payload ++ [c1] ++ [c2]).drop hd.length.toNat := by
      rw [hlength, List.take_left, List.append_assoc, List.drop_left, hcrc]
      rfl
    rw [receiveByte_last (by rw [setRx_link_same]) (by rw [List.length_append, hlength]; rfl), if_pos hgood, setRx_setRx,
      List.append_assoc]
    rfl
  have hbody := h.execAll_payload hd (checkByte hd) (sendBytes l (s.link l).settings.parity [c2] ++ rest) (payload ++ [c1]) []
    (by rw [List.length_append, hlength]; simp)
  have hbytes : encodeFrame address kind payload =
      [delimiter, address, kind, byteOf payload.length, checkByte hd] ++ ((payload ++ [c1]) ++ [c2]) := by
    rw [encodeFrame, show crcBytes _ payload = [c1, c2] from hcrc]
    simp [hd]
  rw [hcrc, hbytes, sendBytes, List.map_append, List.append_assoc]
  refine (congrArg (execAll _) (setRx_of_rx hrx)).symm.trans ?_
  simp only [List.map_cons, List.map_nil, List.cons_append, List.nil_append]
  rw [h.execAll_cons _ _ _ _ hstart, h.execAll_cons _ (.header [address]) _ _ (hheader [] _ (by decide)),
    h.execAll_cons _ (.header [address, kind]) _ _ (hheader [address] _ (by simp)),
    h.execAll_cons _ (.header [address, kind, byteOf payload.length]) _ _ (hheader [address, kind] _ (by simp)),
    h.execAll_cons _ _ _ _ hcheck, List.map_append, List.append_assoc]
  exact hbody.trans (h.execAll_cons _ _ _ rest hlast)

/-- The idle after a whole frame takes it, and leaves the receiver in HUNT as it found it (R10). -/
theorem Settled.execAll_sent (h : Settled l s) (hrx : (s.link l).rx = .hunt) {address kind : Byte} {payload : List Byte}
    (hlen : payload.length ≤ 240) (ha : address = 0 ∨ address.toNat = (s.link l).settings.node)
    (hk : (kind = 1 ∧ address = 0 ∧ payload.length = 7) ∨ kind = 2 ∨ kind = 3) :
    execAll (sendBytes l (s.link l).settings.parity (encodeFrame address kind payload) ++ [.idle l]) s =
      .next (takeFrame l (frameHeader address kind payload) payload s) := by
  have hlength : (byteOf payload.length).toNat = payload.length := byteOf_toNat (by omega)
  rw [h.execAll_frame hrx hlen ha hk, execAll, exec_idle (h.setRx _).enabled,
    receiveIdle_complete (by rw [setRx_link_same]) (by rw [hlength, List.length_append]; rfl), hlength, List.take_left,
    setRx_setRx, setRx_of_rx hrx]
  rfl

end

/-- Settles O10: the frame arrives whole at idle, which takes it by its kind. -/
theorem wholeFramesArrive : Obligations.WholeFramesArrive := by
  intro l s address payload he hrx hp hs hlen ha sent
  have h : Settled l s := ⟨he, hp, hs⟩
  refine ⟨fun hfree hq => ?_, fun h0 h7 hlatch => ?_, ?_⟩
  · refine (h.execAll_sent hrx hlen ha (.inr (.inl rfl))).trans ?_
    rw [takeFrame_request rfl, takeRequestFrame_admitted hq, if_neg (Nat.not_le.2 hfree)]
  · refine (h.execAll_sent hrx hlen ha (.inl ⟨rfl, h0, h7⟩)).trans ?_
    rw [takeFrame_epoch rfl, if_pos hlatch]
  · refine (h.execAll_sent hrx hlen ha (.inr (.inr rfl))).trans ?_
    rw [takeFrame_filler rfl]

end Sys2Proof.Machine

/-! PROOFS. The return transmitter and its replies (O11, O13): the bits of a character, the characters of a reply across a change
of parity, the states of the transmitter and the send point (R1, R3, R14, R17 to R23, R28). -/

namespace Sys2Proof.Machine

/-! ### The bits of a character (R1) -/

/-- The bits between start and stop bit of a character with a parity bit. -/
theorem charBits_ones (b : Byte) (x : Bool) :
    ((List.range 9).countP fun i => (false :: bitsOf b ++ [x] ++ [true]).getD (i + 1) false) =
      (bitsOf b ++ [x]).countP id := by
  have hbits : (List.range 9).map (fun i => (false :: bitsOf b ++ [x] ++ [true]).getD (i + 1) false) = bitsOf b ++ [x] := rfl
  rw [← hbits, List.countP_map]
  rfl

theorem count_mod_two_of_oddOnes {bs : List Bool} : bs.countP id % 2 = if oddOnes bs then 1 else 0 := by
  rw [oddOnes_eq_count]
  rcases Nat.mod_two_eq_zero_or_one (bs.countP id) with h | h <;> simp [h]

/-- The parity bit of EVEN makes the ones of data and parity even, that of ODD odd (R1). -/
theorem oddOnes_parityBit (b : Byte) :
    oddOnes (bitsOf b ++ [oddOnes (bitsOf b)]) = false ∧ oddOnes (bitsOf b ++ [!oddOnes (bitsOf b)]) = true := by
  simp [oddOnes_append, oddOnes_singleton]

theorem charBits_spec (p : Parity) (b : Byte) :
    (charBits p b)[0]? = some false ∧ (charBits p b).getLast? = some true ∧
      ∀ i < 8, (charBits p b)[i + 1]? = some (b.getLsbD i) := by
  refine ⟨rfl, by unfold charBits; exact List.getLast?_concat .., fun i hi => ?_⟩
  have hbit : (bitsOf b)[i]? = some (b.getLsbD i) := by simp [bitsOf, hi]
  unfold charBits
  rw [List.append_assoc, List.cons_append, List.getElem?_cons_succ,
    List.getElem?_append_left (by simpa using hi), hbit]

/-! ### The characters of a reply (R3, R20, R21) -/

section

variable {ls : LinkState} {frame : List Byte} {begun : List WireChar} {n : Nat}

/-- The characters of a frame that have begun when n have, those not known to have begun under parity p (R3, R20). -/
abbrev begunChars (p : Parity) (frame : List Byte) (begun : List WireChar) (n : Nat) : List WireChar :=
  begun ++ ((frame.take n).drop begun.length).map (charBits p)

theorem begunChars_length (p : Parity) (hb : begun.length ≤ n) (hn : n ≤ frame.length) :
    (begunChars p frame begun n).length = n := by
  rw [List.length_append, List.length_map, List.length_drop, List.length_take]
  omega

/-- A character that has begun keeps its bits across a change of parity, and the others take the new one (R3, R20). -/
theorem returnChars_withBegun (htx : ls.tx = .sending frame begun) (hb : begun.length ≤ n) (hn : n ≤ frame.length)
    (p : Parity) :
    ({ ls with tx := ls.tx.withBegun ls.settings.parity n, settings := { ls.settings with parity := p } } :
        LinkState).returnChars =
      begunChars ls.settings.parity frame begun n ++ (frame.drop n).map (charBits p) := by
  rw [htx, LinkState.returnChars]
  dsimp only [Tx.withBegun]
  rw [begunChars_length _ hb hn]

/-- A dropped reply ends with the last character that has begun (R21; log 36). -/
theorem dropped_eq_finishing (htx : ls.tx = .sending frame begun) (hb : begun.length ≤ n) (hn : n ≤ frame.length)
    (h1 : 1 ≤ n) (p : Parity) :
    ∃ c, (begunChars p frame begun n)[n - 1]? = some c ∧ ls.tx.dropped p n = .finishing c := by
  have hlen := begunChars_length p hb hn
  have hlt : n - 1 < (begunChars p frame begun n).length := by omega
  refine ⟨(begunChars p frame begun n)[n - 1], List.getElem?_eq_getElem hlt, ?_⟩
  have hall : begun ++ (frame.drop begun.length).map (charBits p) =
      begunChars p frame begun n ++ (frame.drop n).map (charBits p) := by
    rw [List.append_assoc, ← List.map_append, List.drop_take]
    congr 2
    rw [show frame.drop n = (frame.drop begun.length).drop (n - begun.length) by
      rw [List.drop_drop, Nat.add_sub_cancel' hb], List.take_append_drop]
  rw [htx, Tx.dropped, charInProgress, max_eq_left hb, hall, List.getD_eq_getElem?_getD, List.getElem?_append_left hlt,
    List.getElem?_eq_getElem hlt, Option.getD_some]

end

/-! ### The send point and the states of the transmitter (R14, R18) -/

theorem encodeFrame_take_one (address kind : Byte) (payload : List Byte) :
    (encodeFrame address kind payload).take 1 = [0xC3] := rfl

/-- SENDING from the send point on: the delimiter alone has begun (R3, R14). -/
theorem beginSending_encodeFrame (p : Parity) (address kind : Byte) (payload : List Byte) :
    beginSending p (encodeFrame address kind payload) =
      .sending (encodeFrame address kind payload) [charBits p 0xC3] := by
  rw [beginSending, encodeFrame_take_one]
  rfl

/-- The send point of a reply (R14, R17). -/
theorem sendPoint_eq (l : Link) (r : Reply) (s : State) :
    sendPoint l r s = s.setLink l
      { s.link l with
        tx := .sending
          (encodeFrame (byteOf r.address) 0x04 ([r.tag, r.outcome.code] ++ be2 (s.link l).errors.toNat ++ r.data))
          [charBits (s.link l).settings.parity 0xC3]
        errors := 0
        quarantined := (s.link l).quarantined && !r.ofStatus } := by
  rw [sendPoint, replyFrame, beginSending_encodeFrame]
  rfl

/-- A frame of which the delimiter has begun leaves the wire character by character under the parity in force (R3). -/
theorem returnChars_of_sent {ls : LinkState} {address kind : Byte} {payload : List Byte}
    (htx : ls.tx = .sending (encodeFrame address kind payload) [charBits ls.settings.parity 0xC3]) :
    ls.returnChars = (encodeFrame address kind payload).map (charBits ls.settings.parity) := by
  rw [LinkState.returnChars, htx]
  rfl

/-- Outside SENDING the wire is high (R3). -/
theorem returnWire_of_not_sending {ls : LinkState} (h : ls.returnChars = []) (n : Nat) : ls.returnWire n = true := by
  rw [LinkState.returnWire, h]
  rfl

theorem endReply_eq (l : Link) (s : State) :
    endReply l s = s.setLink l
      { s.link l with
        tx := if replyDriveEnabled l s = true ∧ (s.link l).settings.tail ≠ 0 then .tail else .idle } := by
  unfold endReply
  split <;> rfl

/-- Settles O11: the bits of a character, the characters of a reply, and each state's end. -/
theorem transmitterPassesItsStates : Obligations.TransmitterPassesItsStates := by
  refine ⟨fun p b => ?_, fun ls p frame begun n htx hb hn => ⟨returnChars_withBegun htx hb hn p,
    fun h1 => dropped_eq_finishing htx hb hn h1 _⟩, fun l s => ⟨fun r htx => ?_, fun h n => ?_,
    fun bytes begun wire htx hne => ?_, fun htx => ?_, fun c htx => ?_⟩⟩
  · obtain ⟨h0, hlast, hbits⟩ := charBits_spec p b
    refine ⟨charBits_length p b, h0, hlast, hbits, ?_, ?_⟩ <;> rintro rfl
    · exact (congrArg (· % 2) (charBits_ones b _)).trans (by
        rw [count_mod_two_of_oddOnes, (oddOnes_parityBit b).1]; rfl)
    · exact (congrArg (· % 2) (charBits_ones b _)).trans (by
        rw [count_mod_two_of_oddOnes, (oddOnes_parityBit b).2]; rfl)
  · refine ⟨_, ?_, rfl, ?_⟩
    · change execLeadExpiry l s = _
      rw [execLeadExpiry, htx]
      exact congrArg _ (sendPoint_eq l r s)
    · rw [State.link_setLink_same]
      exact returnChars_of_sent rfl
  · refine returnWire_of_not_sending ?_ n
    rcases h with h | ⟨r, h⟩ | h <;> rw [LinkState.returnChars, h]
  · change execReplyComplete ⟨l, wire⟩ s = _
    rw [execReplyComplete, htx]
    dsimp only
    rw [if_neg hne, endReply_eq]
  · change execTailExpiry l s = _
    rw [execTailExpiry, if_pos htx, setTx]
  · change execCharacterInProgressCompleted l s = _
    rw [execCharacterInProgressCompleted, htx, setTx]

/-! ### The reply of a request taken (R18, R19, R28) -/

theorem wantsReply_eq_false {rq : Request} (h : rq.replyWanted = false ∨ rq.broadcast = true) : rq.wantsReply = false := by
  rcases h with h | h <;> simp [Request.wantsReply, h]

/-- Settles O13: R18's condition decides between LEAD and the send point. -/
theorem repliesGoToTheSourceLink : Obligations.RepliesGoToTheSourceLink := by
  intro rq outcome data s ls r t
  refine ⟨fun h => finishTake_of_no_reply _ (wantsReply_eq_false h), fun hr hb => ?_⟩
  have hoffer : t = offerReply rq.src r s := finishTake_of_reply _ (by simp [Request.wantsReply, hr, hb])
  refine ⟨fun hlead => ?_, fun hnow => ?_⟩
  · rw [hoffer, offerReply, if_pos hlead]
    rfl
  · rw [hoffer, offerReply, if_neg hnow, sendPoint_eq]
    rfl

end Sys2Proof.Machine

/-! PROOFS. The requests on links (O17) and the soft restart (O19), each from what its handler answers (R20 to R23, R36 to R39). -/

namespace Sys2Proof.Machine

/-! ### SET_LINK and SET_RETURN_LIMIT (R20, R36) -/

theorem clamp_zero (hi v : Nat) : clamp 0 hi v = min hi v := by rw [clamp_eq, Nat.zero_max]

/-- A clamped number is reported exactly when it lay outside its range (R30). -/
theorem clamp_bne {lo hi : Nat} (v : Nat) (h : lo ≤ hi) : (clamp lo hi v != v) = decide (v < lo ∨ hi < v) := by
  rw [Bool.eq_iff_iff, bne_iff_ne, decide_eq_true_iff]
  exact clamp_ne_iff v h

/-- What stands of a character under way after a SET_LINK (R20, R22). -/
theorem LinkState.withSettings_oldParity (ls : LinkState) (wire : WireIn) (w : LinkSettings) :
    (ls.withSettings wire w).oldParity =
      if ls.enabled = true ∧ wire.underWay = true ∧ ls.skipping = false then
        some (ls.oldParity.getD ls.settings.parity) else none := by
  cases he : ls.enabled <;> cases hu : wire.underWay <;> cases hk : ls.skipping <;>
    simp [LinkState.withSettings, LinkState.charParity, he, hu, hk]

theorem LinkState.withSettings_eq (ls : LinkState) (wire : WireIn) (w : LinkSettings) :
    ls.withSettings wire w =
      { ls with
        settings := w
        tx := ls.tx.withBegun ls.settings.parity wire.begun
        oldParity := if ls.enabled = true ∧ wire.underWay = true ∧ ls.skipping = false then
          some (ls.oldParity.getD ls.settings.parity) else none
        skipping := ls.skipping && wire.underWay } := by
  rw [← withSettings_oldParity ls wire w]
  rfl

theorem setLinkAnswer_of_codes {wire : WireIn} {rq : Request} {s : State} {t : Link} {parity : Parity} {stop : Bool}
    (ht : linkOf (rq.arg 0) = some t) (hp : parityOf (rq.arg 2) = some parity) (hs : boolOf (rq.arg 3) = some stop) :
    setLinkAnswer wire rq s = carriedOut (decide (rq.num 1 < 1 ∨ 63 < rq.num 1 ∨ 15 < rq.num 4 ∨ 15 < rq.num 5))
      (s.setLink t ((s.link t).withSettings wire
        { node := max 1 (min 63 (rq.num 1)), parity := parity, stopOnError := stop,
          returnLimit := (s.link t).settings.returnLimit, lead := min 15 (rq.num 4), tail := min 15 (rq.num 5) })) := by
  have hclamped : (clamp 1 63 (rq.num 1) != rq.num 1 || clamp 0 15 (rq.num 4) != rq.num 4 ||
      clamp 0 15 (rq.num 5) != rq.num 5) =
        decide (rq.num 1 < 1 ∨ 63 < rq.num 1 ∨ 15 < rq.num 4 ∨ 15 < rq.num 5) := by
    rw [clamp_bne _ (by decide), clamp_bne _ (by decide), clamp_bne _ (by decide)]
    simp [Bool.or_assoc]
  rw [setLinkAnswer, ht, hp, hs]
  dsimp only
  rw [hclamped, clamp_zero, clamp_zero]
  rfl

theorem setReturnLimitAnswer_eq (rq : Request) (s : State) :
    setReturnLimitAnswer rq s = carriedOut (decide (rq.num 0 < 8 ∨ 192 < rq.num 0))
      (s.setLink rq.src
        { s.link rq.src with
          settings := { (s.link rq.src).settings with returnLimit := max 8 (min 192 (rq.num 0)) } }) := by
  rw [setReturnLimitAnswer, clamp_bne _ (by decide)]
  rfl

/-! ### DISABLE_LINK and ENABLE_LINK (R21, R22) -/

section

variable {wire : WireIn} {rq : Request} {s : State}

/-- The privileged link disables the other one (R21). -/
theorem disableLinkAnswer_other (ht : linkOf (rq.arg 0) = some rq.src.other) (hp : rq.src = s.executor.privileged)
    (he : (s.link rq.src.other).enabled = true) :
    disableLinkAnswer wire rq s = carriedOut false (disableEffect rq.src.other wire s) := by
  unfold disableLinkAnswer
  rw [ht]
  dsimp only
  rw [if_neg (Link.other_ne _), if_neg (fun hn => hn hp), if_pos he]

/-- The privileged link enables the other one, which was DISABLED (R22). -/
theorem enableLinkAnswer_other (ht : linkOf (rq.arg 0) = some rq.src.other) (hp : rq.src = s.executor.privileged)
    (he : (s.link rq.src.other).enabled = false) :
    enableLinkAnswer wire rq s = carriedOut false (enableEffect rq.src.other wire s) := by
  unfold enableLinkAnswer
  rw [ht]
  dsimp only
  rw [if_neg (Link.other_ne _), if_neg (fun hn => hn hp), if_neg (by simp [he])]

end

/-- Settles O17: each take passes its first checks, and its handler's answer is the one stated. -/
theorem linkRequestsTakeEffect : Obligations.LinkRequestsTakeEffect := by
  intro src wire s rq s1
  refine ⟨fun t parity stop htakes hlen hperm ht hp hs => ?_, fun htakes hlen hperm => ?_,
    fun htakes hlen ht hpriv he => ?_, fun htakes hlen ht hpriv he => ?_⟩
  · refine congrArg _ ((take_checked htakes _ hlen hperm).trans (congrArg _ ?_))
    rw [setLinkAnswer_of_codes ht hp hs]
    refine congrArg (fun ls => carriedOut _ (s1.setLink t ls)) ?_
    rw [LinkState.withSettings_eq, popTaken_link]
  · refine congrArg _ ((take_checked htakes _ hlen hperm).trans (congrArg _ ?_))
    rw [setReturnLimitAnswer_eq, htakes.src, (popTaken_settings src src s).1]
  · refine congrArg _ ((take_lengthChecked htakes _ hlen).trans (congrArg _ ?_))
    obtain rfl := htakes.src
    have hlink : s1.link rq.src.other = s.link rq.src.other := popTaken_link_other ..
    change disableLinkAnswer wire rq s1 = _
    rw [disableLinkAnswer_other (s := s1) ht hpriv (hlink ▸ he), disableEffect, hlink]
    rfl
  · refine congrArg _ ((take_lengthChecked htakes _ hlen).trans (congrArg _ ?_))
    obtain rfl := htakes.src
    have hlink : s1.link rq.src.other = s.link rq.src.other := popTaken_link_other ..
    change enableLinkAnswer wire rq s1 = _
    rw [enableLinkAnswer_other (s := s1) ht hpriv (hlink ▸ he), enableEffect, hlink]
    rfl

/-! ### The soft restart (R23, R38) -/

section

variable (l : Link) (wire : WireIn) (s : State)

/-- Both links restart alike, but for the transmitter whose last stop bit makes the restart. -/
theorem softRestartEffect_link_same :
    (softRestartEffect l wire s).link l = { (s.link l).afterRestart wire with tx := .idle } := by
  cases l <;> rfl

theorem softRestartEffect_link_other : (softRestartEffect l wire s).link l.other = (s.link l.other).afterRestart wire := by
  cases l <;> rfl

/-- The monitor of a link after a soft restart (R39). -/
theorem softRestartEffect_monitor (x : Link) :
    (softRestartEffect l wire s).monitor x = freshMonitor (if (s.link x).enabled then .hunting else .down) := by
  cases x <;> rfl

theorem softRestartEffect_line (n : LineId) :
    (softRestartEffect l wire s).line n = { s.line n with edgeFlag := false } :=
  PerLine.get_build (fun n => (s.lineUnit.lines.get n).afterRestart) n

end

/-- What the soft restart keeps and what it starts anew of a link (R23). -/
theorem softRestartEffect_link (l : Link) (wire : WireIn) (s : State) (x : Link) :
    let ls := (softRestartEffect l wire s).link x
    ls.enabled = (s.link x).enabled ∧ ls.settings = (s.link x).settings ∧ ls.rx = .hunt ∧ ls.latch = none ∧
      ls.queue = [] ∧ ls.errors = 0 ∧ ls.quarantined = false := by
  rcases Link.eq_or_eq_other l x with rfl | rfl
  · rw [softRestartEffect_link_same]
    exact ⟨rfl, rfl, rfl, rfl, rfl, rfl, rfl⟩
  · rw [softRestartEffect_link_other]
    exact ⟨rfl, rfl, rfl, rfl, rfl, rfl, rfl⟩

/-- The last stop bit of the awaited reply makes the restart (R38). -/
theorem exec_replyComplete_of_awaited {l : Link} {wire : WireIn} {s : State} {bytes : List Byte} {begun : List WireChar}
    (htx : (s.link l).tx = .sending bytes begun) (hpending : s.executor.restartPending = some l) :
    exec (.replyComplete ⟨l, wire⟩) s = .next (softRestartEffect l wire s) := by
  change execReplyComplete ⟨l, wire⟩ s = _
  rw [execReplyComplete, htx]
  dsimp only
  rw [if_pos hpending]

/-- Settles O19: block by block, from what the restart's effect writes. -/
theorem softRestartKeepsTheTables : Obligations.SoftRestartKeepsTheTables := by
  intro l wire s bytes begun htx hpending
  refine ⟨softRestartEffect l wire s, exec_replyComplete_of_awaited htx hpending, fun x => ?links, ?sourceTx, ?otherTx, rfl,
    rfl, rfl, rfl, rfl, rfl, rfl, rfl, rfl, rfl, rfl, rfl, rfl, rfl, rfl, rfl, rfl, rfl, rfl, rfl, rfl, rfl, rfl, rfl, rfl, rfl,
    softRestartEffect_line l wire s, rfl, rfl, rfl, rfl, rfl⟩
  case links =>
    obtain ⟨henabled, hsettings, hrx, hlatch, hqueue, herrors, hquarantined⟩ := softRestartEffect_link l wire s x
    exact ⟨henabled, hsettings, hrx, hlatch, hqueue, herrors, hquarantined, softRestartEffect_monitor l wire s x⟩
  case sourceTx => rw [softRestartEffect_link_same]
  case otherTx =>
    rw [softRestartEffect_link_other]
    rfl

end Sys2Proof.Machine

/-! PROOFS. The state after power-on: its values (O3), the reset from any state (O4) and the invariants it meets (O58). -/

namespace Sys2Proof.Machine

/-! ### What power-on leaves on each link and line (R23, R43, R175) -/

section

variable (pins : PinIn)

theorem powerOn_link (l : Link) : (State.powerOn pins).link l = powerOnLink := by cases l <;> rfl

theorem powerOn_monitor (l : Link) : (State.powerOn pins).monitor l = freshMonitor .hunting := by cases l <;> rfl

theorem powerOn_line (n : LineId) : (State.powerOn pins).line n = powerOnLine (pins.level.getLsbD (LineId.index n)) :=
  PerLine.get_build (fun n => powerOnLine (pins.level.getLsbD (LineId.index n))) n

/-- The strap names the privileged link (R31, R185). -/
theorem powerOn_privileged : (State.powerOn pins).executor.privileged = (State.powerOn pins).lineUnit.strap := rfl

end

/-- Settles O3: links, monitors and lines are alike, and every other block has the value of its table. -/
theorem resetValues : Obligations.ResetValues := by
  unfold Obligations.ResetValues
  intro s
  have monitors : ∀ x, (s.monitor x).state = .hunting ∧ (s.monitor x).good = 0 ∧ (s.monitor x).last = none ∧
      (s.monitor x).timer = none := fun x => by
    have hmon : s.monitor x = freshMonitor .hunting := powerOn_monitor _ x
    rw [hmon]
    exact ⟨rfl, rfl, rfl, rfl⟩
  have lines : ∀ n, (s.line n).enables = 0 ∧ (s.line n).dirOut = false ∧ (s.line n).level = false ∧
      (s.line n).invert = false ∧ (s.line n).pull = .none ∧ (s.line n).edge = .none ∧ (s.line n).filter = 0 ∧
      (s.line n).run = 0 ∧ (s.line n).edgeFlag = false := fun n => by
    have hline : s.line n = powerOnLine _ := powerOn_line _ n
    rw [hline]
    exact ⟨rfl, rfl, rfl, rfl, rfl, rfl, rfl, rfl, rfl⟩
  exact ⟨powerOn_link _, rfl, rfl, rfl, rfl, rfl, rfl, rfl, rfl, monitors, rfl, rfl, rfl, rfl, rfl, rfl, rfl, rfl, rfl, rfl,
    rfl, rfl, rfl, rfl, rfl, rfl, rfl, rfl, rfl, rfl, rfl, rfl, rfl, rfl, rfl, rfl, rfl, lines, rfl, rfl, rfl, rfl⟩

/-- Settles O4: a power-on reset leaves the power-on state, but for the queue and the counter of free values. -/
theorem powerOnResetRestores : Obligations.PowerOnResetRestores := fun pins _ =>
  ⟨_, rfl, rfl, powerOn_privileged pins, powerOn_line pins, rfl, rfl, rfl, rfl, rfl, rfl, rfl, rfl, rfl, rfl, rfl, rfl, rfl,
    rfl, rfl, rfl, rfl, rfl, rfl, rfl, rfl⟩

/-! ### The invariants after reset -/

theorem reset_time : TimeSound State.reset := by decide

theorem reset_civil : CivilSound State.reset := by decide

/-- The banks hold the factory map, which passes every check; there is no view, word or override (R112, R113). -/
theorem reset_words : WordsSound State.reset := by
  refine ⟨?map, ?shadow, ?committed, ?test, ?onStack, ?view, ?pending, ?current, ?setting, ?setting', ?inForce, ?inForce',
    ?depth, ?entries, ?marks⟩ <;> decide

theorem reset_minute : MinuteSound State.reset := by decide

/-- The factory profiles lie in their ranges, and the ramp has its power-on length (R145, R163). -/
theorem reset_envelope : EnvelopeSound State.reset := by
  refine ⟨?p0, ?p1, ?p2, ?p3, ?latch, ?out, ?amp, ?ramp, ?ramp', ?rc, ?rc', ?fr, ?fr', ?k⟩ <;> decide

theorem reset_slot : SlotSound State.reset := by decide

theorem reset_carrier : CarrierSound State.reset := by decide

theorem reset_executor : ExecutorSound State.reset := by decide

theorem reset_lines : LinesSound State.reset := by
  refine ⟨?lines, ?width, ?width', ?slot, ?minute, ?slotTimer, ?second⟩ <;> decide

theorem reset_counters : CountersSound State.reset := by decide

/-- Settles O58, one invariant after the other. -/
theorem resetIsSound : Obligations.ResetIsSound :=
  ⟨reset_references, reset_time, reset_civil, reset_words, reset_minute, reset_envelope, reset_slot, reset_carrier,
    reset_executor, reset_lines, reset_counters⟩

end Sys2Proof.Machine

/-! PROOFS. The reasons of the own checks, request by request (O15). -/

namespace Sys2Proof.Machine

section

variable {pins : PinIn} {wire : WireIn} {rq : Request} {s : State}

/-! ### Links, rights and the part (R21, R22, R33, R36, R37) -/

theorem setLinkAnswer_range (h : linkOf (rq.arg 0) = none ∨ parityOf (rq.arg 2) = none ∨ boolOf (rq.arg 3) = none) :
    setLinkAnswer wire rq s = refuse .range s := by
  unfold setLinkAnswer
  split
  · next ht hp hs => simp [ht, hp, hs] at h
  · rfl

theorem disableLinkAnswer_source (ht : linkOf (rq.arg 0) = some rq.src) :
    disableLinkAnswer wire rq s = refuse .state s := by
  unfold disableLinkAnswer
  rw [ht]
  exact if_pos rfl

theorem disableLinkAnswer_permission (ht : linkOf (rq.arg 0) = some rq.src.other) (hp : rq.src ≠ s.executor.privileged) :
    disableLinkAnswer wire rq s = refuse .permission s := by
  unfold disableLinkAnswer
  rw [ht]
  exact (if_neg (Link.other_ne _)).trans (if_pos hp)

theorem enableLinkAnswer_permission (ht : linkOf (rq.arg 0) = some rq.src.other) (hp : rq.src ≠ s.executor.privileged) :
    enableLinkAnswer wire rq s = refuse .permission s := by
  unfold enableLinkAnswer
  rw [ht]
  exact (if_neg (Link.other_ne _)).trans (if_pos hp)

theorem setPermissionsAnswer_overlap (hp : rq.src = s.executor.privileged) (h : rq.classSet 0 &&& rq.classSet 2 ≠ 0) :
    setPermissionsAnswer rq s = refuse .state s := by
  unfold setPermissionsAnswer
  exact (if_pos hp).trans (if_pos h)

/-- PERMISSIONS itself, bit 11, is never granted or revoked (R33). -/
theorem setPermissionsAnswer_range (hp : rq.src = s.executor.privileged) (h : rq.classSet 0 &&& rq.classSet 2 = 0)
    (hbit : (rq.classSet 0 ||| rq.classSet 2).getLsbD 11 = true) : setPermissionsAnswer rq s = refuse .range s := by
  unfold setPermissionsAnswer
  exact (if_pos hp).trans ((if_neg (fun hn => hn h)).trans (if_pos hbit))

theorem setPermissionsAnswer_permission (hp : rq.src ≠ s.executor.privileged)
    (h : rq.classSet 0 ≠ 0 ∨ rq.classSet 2 ≠ 0) :
    setPermissionsAnswer rq s = refuse .permission s := by
  unfold setPermissionsAnswer
  exact (if_neg hp).trans (if_neg (fun hn => h.elim (fun h0 => h0 hn.1) (fun h2 => h2 hn.2)))

theorem softRestartAnswer_pending (h : s.executor.restartPending ≠ none) :
    softRestartAnswer rq s = refuse .pending s :=
  if_pos (Option.isSome_iff_ne_none.2 h)

/-- A restart needs the carrier OFF and a reply to take effect with (R37). -/
theorem softRestartAnswer_state (hn : s.executor.restartPending = none)
    (h : s.carrier.state ≠ .off ∨ rq.replyWanted = false ∨ rq.broadcast = true) :
    softRestartAnswer rq s = refuse .state s := by
  unfold softRestartAnswer
  rw [hn, if_neg (by simp)]
  by_cases hc : s.carrier.state = .off
  · have hw : rq.wantsReply = false := by
      rcases h with h | h | h
      · exact absurd hc h
      · simp [Request.wantsReply, h]
      · simp [Request.wantsReply, h]
    rw [if_neg (fun hn => hn hc), hw, Bool.not_false, if_pos rfl]
  · rw [if_pos hc]

/-! ### Timebase, balance and civil state (R59, R62, R87) -/

theorem setTimebaseAnswer_range (h : linkOf (rq.arg 2) = none ∨ boolOf (rq.arg 3) = none ∨ boolOf (rq.arg 4) = none) :
    setTimebaseAnswer rq s = refuse .range s := by
  have hnone : rq.timebaseSettings = none := by
    unfold Request.timebaseSettings
    split
    · next hl hr ha => simp [hl, hr, ha] at h
    · rfl
  rw [setTimebaseAnswer, hnone]

theorem setBalanceAnswer_state (h : s.carrier.code ≠ .off) : setBalanceAnswer rq s = refuse .state s := if_pos h

theorem setCivilAnswer_state (h : s.carrier.code ≠ .off) : setCivilAnswer rq s = refuse .state s := if_pos h

theorem setBalanceAnswer_range (hc : s.carrier.code = .off)
    (h : rq.signed 0 < -32 ∨ sumsInRange (rq.signed 0) s.rules.leaps = false) :
    setBalanceAnswer rq s = refuse .range s := by
  unfold setBalanceAnswer
  rw [if_neg (fun hn => hn hc)]
  split
  · rfl
  · next hin =>
    have hsums : sumsInRange (rq.signed 0) s.rules.leaps = false := by
      refine h.resolve_left fun hlow => hin ?_
      simp [balanceInRange, Int.not_le.2 hlow]
    rw [hsums, Bool.not_false, if_pos rfl]

theorem offsetInRange_eq_false {o : Int} : offsetInRange o = false ↔ o < -48 ∨ 56 < o := by
  simp [offsetInRange]
  omega

theorem setCivilAnswer_range (hc : s.carrier.code = .off)
    (h : rq.signed 0 < -48 ∨ 56 < rq.signed 0 ∨ boolOf (rq.arg 1) = none) : setCivilAnswer rq s = refuse .range s := by
  unfold setCivilAnswer
  rw [if_neg (fun hn => hn hc)]
  split
  · rfl
  · next hin =>
    have hsummer : boolOf (rq.arg 1) = none := by
      refine (or_assoc.2 h).resolve_left fun hout => hin ?_
      rw [offsetInRange_eq_false.2 hout, Bool.not_false]
    rw [hsummer]

/-! ### The lists (R81, R82, R84, R85) -/

theorem any_beq_eq_true {α : Type} {f : α → Nat} {n : Nat} {xs : List α} :
    xs.any (f · == n) = true ↔ ∃ x ∈ xs, f x = n := by simp

theorem any_beq_eq_false {α : Type} {f : α → Nat} {n : Nat} {xs : List α} :
    xs.any (f · == n) = false ↔ ∀ x ∈ xs, f x ≠ n := by simp

theorem Request.leapEntry_eq_none (h : 36524 < rq.num2 0 ∨ boolOf (rq.arg 2) = none) : rq.leapEntry = none := by
  unfold Request.leapEntry
  split
  · rfl
  · next hday => rw [h.resolve_left hday, Option.map_none]

theorem Request.leapEntry_eq_some {e : LeapEntry} (hspan : rq.num2 0 ≤ 36524) (hday : e.day = rq.num2 0)
    (hkind : boolOf (rq.arg 2) = some (!e.insert)) : rq.leapEntry = some e := by
  have hin : ¬ Config.lastDay < rq.num2 0 := Nat.not_lt.2 hspan
  rw [Request.leapEntry, if_neg hin, hkind, Option.map_some, Bool.not_not, ← hday]

theorem addLeapAnswer_range (h : 36524 < rq.num2 0 ∨ boolOf (rq.arg 2) = none) : addLeapAnswer rq s = refuse .range s := by
  rw [addLeapAnswer, Request.leapEntry_eq_none h]

section

variable {e : LeapEntry} (he : rq.leapEntry = some e)
include he

theorem addLeapAnswer_state (h : ∃ x ∈ s.rules.leaps, x.day = e.day) : addLeapAnswer rq s = refuse .state s := by
  rw [addLeapAnswer, he]
  exact if_pos (any_beq_eq_true.2 h)

variable (hfree : ∀ x ∈ s.rules.leaps, x.day ≠ e.day)
include hfree

theorem addLeapAnswer_listFull (h : 4 ≤ s.rules.leaps.length) : addLeapAnswer rq s = refuse .listFull s := by
  rw [addLeapAnswer, he]
  dsimp only
  rw [any_beq_eq_false.2 hfree, if_neg Bool.false_ne_true, if_pos h]

theorem addLeapAnswer_late (hroom : s.rules.leaps.length < 4) (h : leapLate s e.leapMinute = true) :
    addLeapAnswer rq s = refuse .late s := by
  rw [addLeapAnswer, he]
  dsimp only
  rw [any_beq_eq_false.2 hfree, if_neg Bool.false_ne_true, if_neg (Nat.not_le.2 hroom), if_pos h]

theorem addLeapAnswer_sums (hroom : s.rules.leaps.length < 4) (hlate : leapLate s e.leapMinute = false)
    (hsums : sumsInRange s.timeScale.sumBase (insertLeap e s.rules.leaps) = false) :
    addLeapAnswer rq s = refuse .range s := by
  rw [addLeapAnswer, he]
  dsimp only
  rw [any_beq_eq_false.2 hfree, if_neg Bool.false_ne_true, if_neg (Nat.not_le.2 hroom), hlate,
    if_neg Bool.false_ne_true, hsums, Bool.not_false, if_pos rfl]

end

theorem deleteLeapAnswer_notFound (h : ∀ x ∈ s.rules.leaps, x.day ≠ rq.num2 0) :
    deleteLeapAnswer rq s = refuse .notFound s := by
  have hnone : s.rules.leaps.find? (·.day == rq.num2 0) = none := by simpa using h
  rw [deleteLeapAnswer, hnone]

/-- The entry that DELETE_LEAP finds is one of its day (R82). -/
theorem find_leap_of_day {leaps : List LeapEntry} {day : Nat} (h : ∃ x ∈ leaps, x.day = day) :
    ∃ e, leaps.find? (·.day == day) = some e ∧ e.day = day := by
  have hsome : (leaps.find? (·.day == day)).isSome = true := by simpa using h
  obtain ⟨e, he⟩ := Option.isSome_iff_exists.1 hsome
  exact ⟨e, he, by simpa using List.find?_some he⟩

section

variable {e : LeapEntry} (he : s.rules.leaps.find? (·.day == rq.num2 0) = some e)
include he

theorem deleteLeapAnswer_late (h : leapLate s e.leapMinute = true) : deleteLeapAnswer rq s = refuse .late s := by
  rw [deleteLeapAnswer, he]
  dsimp only
  rw [if_pos h]

theorem deleteLeapAnswer_sums (hlate : leapLate s e.leapMinute = false)
    (hsums : sumsInRange s.timeScale.sumBase (withoutDay (rq.num2 0) s.rules.leaps) = false) :
    deleteLeapAnswer rq s = refuse .range s := by
  rw [deleteLeapAnswer, he]
  dsimp only
  rw [hlate, if_neg Bool.false_ne_true, hsums, Bool.not_false, if_pos rfl]

end

theorem withoutDay_eq_filter (day : Nat) (leaps : List LeapEntry) :
    withoutDay day leaps = leaps.filter (·.day ≠ day) :=
  List.filter_congr fun _ _ => Bool.eq_iff_iff.2 (by simp)

theorem addTransitionAnswer_range
    (h : 52595999 < rq.num4 0 ∨ rq.signed 4 < -48 ∨ 56 < rq.signed 4 ∨ boolOf (rq.arg 5) = none) :
    addTransitionAnswer rq s = refuse .range s := by
  have hnone : rq.transition = none := by
    unfold Request.transition
    split
    · rfl
    · next hin =>
      obtain ⟨hminute, hoffset⟩ := not_or.1 hin
      have hsummer := (or_assoc.2 (h.resolve_left hminute)).resolve_left fun ho => hoffset (offsetInRange_eq_false.2 ho)
      rw [hsummer, Option.map_none]
  rw [addTransitionAnswer, hnone]

/-- In range, ADD_TRANSITION names an entry of its minute (R84). -/
theorem Request.transition_minute (hminute : rq.num4 0 ≤ 52595999) (hlow : -48 ≤ rq.signed 4) (hhigh : rq.signed 4 ≤ 56)
    (hsummer : boolOf (rq.arg 5) ≠ none) : ∃ e, rq.transition = some e ∧ e.minute = rq.num4 0 := by
  obtain ⟨b, hb⟩ := Option.ne_none_iff_exists'.1 hsummer
  refine ⟨{ minute := rq.num4 0, offset := rq.signed 4, summer := b }, ?_, rfl⟩
  have hin : ¬ (Config.lastMinute < rq.num4 0 ∨ offsetInRange (rq.signed 4) = false) := by
    rw [offsetInRange_eq_false]
    unfold Config.lastMinute
    omega
  rw [Request.transition, if_neg hin, hb, Option.map_some]

section

variable {e : Transition} (he : rq.transition = some e)
include he

theorem addTransitionAnswer_late (h : transitionLate s e.minute = true) : addTransitionAnswer rq s = refuse .late s := by
  rw [addTransitionAnswer, he]
  exact if_pos h

theorem addTransitionAnswer_listFull (hlate : transitionLate s e.minute = false)
    (hfree : ∀ x ∈ s.rules.transitions, x.minute ≠ e.minute) (h : 16 ≤ s.rules.transitions.length) :
    addTransitionAnswer rq s = refuse .listFull s := by
  rw [addTransitionAnswer, he]
  dsimp only
  rw [hlate, if_neg Bool.false_ne_true, any_beq_eq_false.2 hfree, if_pos (by simpa using h)]

end

theorem deleteTransitionAnswer_notFound (h : ∀ x ∈ s.rules.transitions, x.minute ≠ rq.num4 0) :
    deleteTransitionAnswer rq s = refuse .notFound s := by
  rw [deleteTransitionAnswer, any_beq_eq_false.2 h, Bool.not_false, if_pos rfl]

theorem deleteTransitionAnswer_late (hmem : ∃ x ∈ s.rules.transitions, x.minute = rq.num4 0)
    (h : transitionLate s (rq.num4 0) = true) : deleteTransitionAnswer rq s = refuse .late s := by
  rw [deleteTransitionAnswer, any_beq_eq_true.2 hmem, Bool.not_true, if_neg Bool.false_ne_true, if_pos h]

/-! ### Maps, test record and overrides (R104, R108, R109, R124, R135, R136) -/

theorem writeMapOwn_pending (h : s.assembler.commitPending = true) : writeMapOwn rq s = refuse .pending s := if_pos h

theorem commitMapAnswer_pending (h : s.assembler.commitPending = true) : commitMapAnswer rq s = refuse .pending s := if_pos h

theorem cancelCommitAnswer_notFound (h : s.assembler.commitPending = false) :
    cancelCommitAnswer rq s = refuse .notFound s :=
  if_neg (by simp [h])

theorem writeMapOwn_range (hc : s.assembler.commitPending = false)
    (h : rq.num 1 = 0 ∨ 61 < rq.num 0 + rq.num 1 ∨ entriesOf (rq.args.drop 2) = none) :
    writeMapOwn rq s = refuse .range s := by
  unfold writeMapOwn
  dsimp only
  rw [hc, if_neg Bool.false_ne_true]
  split
  · rfl
  · next hfits => rw [(or_assoc.2 h).resolve_left hfits]

theorem writeTestOwn_range (h : symbolsOf (rq.args.drop 1) = none) : writeTestOwn rq s = refuse .range s := by
  rw [writeTestOwn, h]

/-- While an override puts the test record on air, a faulty record is refused (R124). -/
theorem writeTestOwn_validation {record : List Symbol} {n : Nat} (h : symbolsOf (rq.args.drop 1) = some record)
    (ht : hasTestEntry s.stack = true) (hf : testRecordFault record = some n) :
    writeTestOwn rq s = refuse (.validation n) s := by
  rw [writeTestOwn, h]
  dsimp only
  rw [ht, if_pos rfl, hf]

theorem testRecordFault_first {record : List Symbol} (h : record[0]? ≠ some .mark) : testRecordFault record = some 1 :=
  if_pos h

theorem testRecordFault_last {record : List Symbol} (h : record[0]? = some .mark) (h59 : record[59]? ≠ some .nil) :
    testRecordFault record = some 2 :=
  (if_neg (fun hn => hn h)).trans (if_pos h59)

theorem pushOverrideAnswer_range (h : overrideValueOf (rq.arg 0) (rq.arg 1) (rq.arg 2) = none) :
    pushOverrideAnswer rq s = refuse .range s := by
  rw [pushOverrideAnswer, h]

section

variable {value : OverrideValue} {present : Bool} (hv : overrideValueOf (rq.arg 0) (rq.arg 1) (rq.arg 2) = some value)
  (hp : boolOf (rq.arg 3) = some present)
include hv hp

theorem pushOverrideAnswer_stackFull (h : 4 ≤ s.stack.length) : pushOverrideAnswer rq s = refuse .stackFull s := by
  rw [pushOverrideAnswer, hv, hp]
  exact if_pos h

theorem pushOverrideAnswer_validation {n : Nat} (hroom : s.stack.length < 4) (ht : value = .content true)
    (hf : testRecordFault s.assembler.test = some n) : pushOverrideAnswer rq s = refuse (.validation n) s := by
  rw [pushOverrideAnswer, hv, hp]
  dsimp only
  rw [if_neg (Nat.not_le.2 hroom), if_pos ht, hf]

end

/-! ### Profiles, lines and reads (R147, R148, R106, R186, R191) -/

theorem writeProfileAnswer_range (h : 3 < rq.num 0) : writeProfileAnswer rq s = refuse .range s := if_pos h

/-- Past the eight lines and the strobes there is no target (R186). -/
theorem lineOf_eq_none {x : Byte} (h : 8 ≤ x.toNat) : lineOf x = none := by
  have hne : ∀ k : Byte, k.toNat < 8 → x ≠ k := fun k hk he => absurd (he ▸ h) (Nat.not_le.2 hk)
  unfold lineOf
  simp only [hne _ (show (0 : Byte).toNat < 8 by decide), hne _ (show (1 : Byte).toNat < 8 by decide),
    hne _ (show (2 : Byte).toNat < 8 by decide), hne _ (show (3 : Byte).toNat < 8 by decide),
    hne _ (show (4 : Byte).toNat < 8 by decide), hne _ (show (5 : Byte).toNat < 8 by decide),
    hne _ (show (6 : Byte).toNat < 8 by decide), hne _ (show (7 : Byte).toNat < 8 by decide), if_false]

theorem writeLinesAnswer_noTarget (h : 8 < rq.num 0) : writeLinesAnswer pins rq s = refuse .range s := by
  have hx : 8 < (rq.arg 0).toNat := h
  have hne : rq.arg 0 ≠ 0x08 := fun he => by rw [he] at hx; exact absurd hx (by decide)
  rw [writeLinesAnswer, lineOf_eq_none hx.le]
  exact if_neg hne

theorem writeLinesAnswer_settings {n : LineId} (hn : lineOf (rq.arg 0) = some n)
    (h : 2 ^ (functionsOf n).length ≤ rq.num 1 ∨ boolOf (rq.arg 2) = none ∨ boolOf (rq.arg 3) = none ∨
      boolOf (rq.arg 4) = none ∨ pullOf (rq.arg 5) = none ∨ edgeOf (rq.arg 6) = none) :
    writeLinesAnswer pins rq s = refuse .range s := by
  have hnone : rq.lineSettings n = none := by
    unfold Request.lineSettings
    split
    · rfl
    · next henables =>
      split
      · next h2 h3 h4 h5 h6 => simp [h2, h3, h4, h5, h6, henables] at h
      · rfl
  rw [writeLinesAnswer, hn]
  dsimp only
  rw [hnone]

theorem readStatusAnswer_range (h : boolOf (rq.arg 2) = none ∨ 64 < rq.num2 0) :
    readStatusAnswer rq s = refuse .range s := by
  unfold readStatusAnswer
  split
  · rfl
  · next hc => exact if_pos (h.resolve_left (by simp [hc]))

/-- Past the four selectors no bank is named (R106). -/
theorem bankSelected_eq_none {x : Byte} (h : 3 < x.toNat) (a : Assembler) : bankSelected x a = none := by
  have hne : ∀ k : Byte, k.toNat ≤ 3 → x ≠ k := fun k hk he => absurd (he ▸ h) (Nat.not_lt.2 hk)
  rw [bankSelected, if_neg (hne _ (by decide)), if_neg (hne _ (by decide)), if_neg (hne _ (by decide)),
    if_neg (hne _ (by decide))]

theorem readMapAnswer_range (h : 3 < rq.num 2) : readMapAnswer rq s = refuse .range s := by
  rw [readMapAnswer, bankSelected_eq_none h]

theorem readProfileAnswer_range (h : 3 < rq.num 2) : readProfileAnswer rq s = refuse .range s := if_pos h

end

theorem outcome_of_refused {an : Answer} {r : Reason} {s : State} (h : an = refuse r s) : an.outcome = .refused r := by
  rw [h, refuse_outcome]

/-- ADD_LEAP with the day and the kind in range: a listed day, a full list, a passed minute, the sums (R81). -/
theorem addLeapAnswer_reasons {rq : Request} {s : State} (hspan : rq.num2 0 ≤ 36524) (hkind : boolOf (rq.arg 2) ≠ none) :
    ((∃ x ∈ s.rules.leaps, x.day = rq.num2 0) → (addLeapAnswer rq s).outcome = .refused .state) ∧
    ((∀ x ∈ s.rules.leaps, x.day ≠ rq.num2 0) →
      (4 ≤ s.rules.leaps.length → (addLeapAnswer rq s).outcome = .refused .listFull) ∧
      (s.rules.leaps.length < 4 → leapLate s (1440 * rq.num2 0 + 1439) = true →
        (addLeapAnswer rq s).outcome = .refused .late) ∧
      (s.rules.leaps.length < 4 → leapLate s (1440 * rq.num2 0 + 1439) = false →
        s.rules.leaps.Pairwise (·.day < ·.day) →
        ∀ e : LeapEntry, e.day = rq.num2 0 → boolOf (rq.arg 2) = some (!e.insert) →
        sumsInRange s.timeScale.sumBase
          (s.rules.leaps.filter (·.day < rq.num2 0) ++ e :: s.rules.leaps.filter (rq.num2 0 < ·.day)) = false →
        (addLeapAnswer rq s).outcome = .refused .range)) := by
  obtain ⟨delete, hdelete⟩ := Option.ne_none_iff_exists'.1 hkind
  obtain ⟨d, hd, hentry⟩ : ∃ d : LeapEntry, d.day = rq.num2 0 ∧ rq.leapEntry = some d :=
    ⟨{ day := rq.num2 0, insert := !delete }, rfl,
      Request.leapEntry_eq_some hspan rfl (by rw [hdelete, Bool.not_not])⟩
  rw [← hd]
  refine ⟨fun hlisted => outcome_of_refused (addLeapAnswer_state hentry hlisted), fun hfree =>
    ⟨fun hfull => outcome_of_refused (addLeapAnswer_listFull hentry hfree hfull),
      fun hroom hlate => outcome_of_refused (addLeapAnswer_late hentry hfree hroom hlate),
      fun hroom hlate hordered e he hinsert hsums => ?_⟩⟩
  have hentry' : rq.leapEntry = some e := Request.leapEntry_eq_some hspan (he.trans hd) hinsert
  rw [← he] at hfree hlate hsums
  rw [← insertLeap_eq e _ hordered hfree] at hsums
  exact outcome_of_refused (addLeapAnswer_sums hentry' hfree hroom hlate hsums)

/-- DELETE_LEAP of a listed day: a passed minute, the sums (R82). -/
theorem deleteLeapAnswer_reasons {rq : Request} {s : State} (hlisted : ∃ x ∈ s.rules.leaps, x.day = rq.num2 0) :
    (leapLate s (1440 * rq.num2 0 + 1439) = true → (deleteLeapAnswer rq s).outcome = .refused .late) ∧
    (leapLate s (1440 * rq.num2 0 + 1439) = false →
      sumsInRange s.timeScale.sumBase (s.rules.leaps.filter (·.day ≠ rq.num2 0)) = false →
      (deleteLeapAnswer rq s).outcome = .refused .range) := by
  obtain ⟨e, hfound, hday⟩ := find_leap_of_day hlisted
  have hminute : e.leapMinute = 1440 * rq.num2 0 + 1439 := by rw [LeapEntry.leapMinute, hday]
  rw [← hminute, ← withoutDay_eq_filter]
  exact ⟨fun hlate => outcome_of_refused (deleteLeapAnswer_late hfound hlate),
    fun hlate hsums => outcome_of_refused (deleteLeapAnswer_sums hfound hlate hsums)⟩

/-- ADD_TRANSITION with minute, offset and summer code in range: a passed minute, a full list (R84). -/
theorem addTransitionAnswer_reasons {rq : Request} {s : State} (hminute : rq.num4 0 ≤ 52595999) (hlow : -48 ≤ rq.signed 4)
    (hhigh : rq.signed 4 ≤ 56) (hsummer : boolOf (rq.arg 5) ≠ none) :
    (transitionLate s (rq.num4 0) = true → (addTransitionAnswer rq s).outcome = .refused .late) ∧
    (transitionLate s (rq.num4 0) = false → (∀ x ∈ s.rules.transitions, x.minute ≠ rq.num4 0) →
      16 ≤ s.rules.transitions.length → (addTransitionAnswer rq s).outcome = .refused .listFull) := by
  obtain ⟨e, he, hm⟩ := Request.transition_minute hminute hlow hhigh hsummer
  rw [← hm]
  exact ⟨fun hlate => outcome_of_refused (addTransitionAnswer_late he hlate),
    fun hlate hfree hfull => outcome_of_refused (addTransitionAnswer_listFull he hlate hfree hfull)⟩

/-- Settles O15, request by request. -/
theorem requestsNameTheirReason : Obligations.RequestsNameTheirReason := by
  intro pins wire rq s gives day minute base
  have why {an : Answer} {r : Reason} (h : an = refuse r s) : gives an r := outcome_of_refused h
  exact ⟨fun h => why (setLinkAnswer_range h),
    fun ht => why (disableLinkAnswer_source ht),
    fun ht hp => ⟨why (disableLinkAnswer_permission ht hp), why (enableLinkAnswer_permission ht hp)⟩,
    fun hp => ⟨fun h => why (setPermissionsAnswer_overlap hp h), fun h hbit => why (setPermissionsAnswer_range hp h hbit)⟩,
    fun hp h => why (setPermissionsAnswer_permission hp h),
    fun h => why (softRestartAnswer_pending h),
    fun hn h => why (softRestartAnswer_state hn h),
    fun h => why (setTimebaseAnswer_range h),
    fun h => ⟨why (setBalanceAnswer_state h), why (setCivilAnswer_state h)⟩,
    fun hc => ⟨fun h => why (setBalanceAnswer_range hc h), fun h => why (setCivilAnswer_range hc h)⟩,
    fun h => why (addLeapAnswer_range h),
    fun hspan hkind => addLeapAnswer_reasons hspan hkind,
    fun h => why (deleteLeapAnswer_notFound h),
    fun hlisted => deleteLeapAnswer_reasons hlisted,
    fun h => why (addTransitionAnswer_range h),
    fun hminute hlow hhigh hsummer => addTransitionAnswer_reasons hminute hlow hhigh hsummer,
    fun h => why (deleteTransitionAnswer_notFound h),
    fun hlisted hlate => why (deleteTransitionAnswer_late hlisted hlate),
    fun h => ⟨why (writeMapOwn_pending h), why (commitMapAnswer_pending h)⟩,
    fun hc => ⟨why (cancelCommitAnswer_notFound hc), fun h => why (writeMapOwn_range hc h)⟩,
    fun h => why (writeTestOwn_range h),
    fun record h ht => ⟨fun hf => why (writeTestOwn_validation h ht (testRecordFault_first hf)),
      fun h0 h59 => why (writeTestOwn_validation h ht (testRecordFault_last h0 h59))⟩,
    fun h => why (pushOverrideAnswer_range h),
    fun value present hv hp => ⟨fun h => why (pushOverrideAnswer_stackFull hv hp h), fun hroom ht =>
      ⟨fun hf => why (pushOverrideAnswer_validation hv hp hroom ht (testRecordFault_first hf)),
        fun h0 h59 => why (pushOverrideAnswer_validation hv hp hroom ht (testRecordFault_last h0 h59))⟩⟩,
    fun h => why (writeProfileAnswer_range h),
    fun h => why (writeLinesAnswer_noTarget h),
    fun n hn h => why (writeLinesAnswer_settings hn h),
    fun h => why (readStatusAnswer_range h),
    fun h => ⟨why (readMapAnswer_range h), why (readProfileAnswer_range h)⟩⟩

end Sys2Proof.Machine

/-! PROOFS. Which link the executor serves (O12), what a read answers and a chain of reads brings (O16), and the requests on
rights, restart and unknown names (O18). -/

namespace Sys2Proof.Machine

/-! ### Eligibility and arbitration (R25, R26) -/

section

variable {s : State} {l : Link}

theorem serves_iff (s : State) (l : Link) :
    serves s l = true ↔ eligible s l = true ∧ (eligible s l.other = false ∨ s.executor.lastServed ≠ l) := by
  simp [serves]

theorem Tx.free_iff (tx : Tx) : tx.free = true ↔ tx = .idle ∨ tx = .tail := by cases tx <;> simp [Tx.free]

theorem eligible_of_empty (h : (s.link l).queue = []) : eligible s l = false := by rw [eligible, h]

theorem eligible_cons_iff {f : ReqFrame} {q : List ReqFrame} (h : (s.link l).queue = f :: q) :
    eligible s l = true ↔ frameWantsReply f = false ∨ (s.link l).tx = .idle ∨ (s.link l).tx = .tail := by
  rw [eligible, h, ← Tx.free_iff]
  simp

theorem popTaken_cons {f : ReqFrame} {q : List ReqFrame} (h : (s.link l).queue = f :: q) :
    popTaken l s = (s.setLink l { s.link l with queue := q }).withExecutor { s.executor with lastServed := l } := by
  rw [popTaken, h, List.drop_one, List.tail_cons]

end

/-- Settles O12, from what it is to be eligible and to be served. -/
theorem roundRobinServesOneLink : Obligations.RoundRobinServesOneLink := by
  intro s l
  refine ⟨fun h => ((serves_iff s l).1 h).1, fun hl ho => ⟨(serves_iff s l).2 ⟨hl, .inl ho⟩, ?_⟩, fun hl ho => ?_,
    fun f q hq => ⟨eligible_cons_iff hq, popTaken_cons hq⟩, eligible_of_empty⟩
  · rw [serves, ho, Bool.false_and]
  · simp [serves_iff, hl, ho]

/-! ### A chain of reads (R35, 2.10) -/

section

variable {image : List Byte} {o limit : Nat}

theorem readAnswer_more (h : o + limit < image.length) (s : State) :
    readAnswer image o limit s =
      { outcome := .more, data := be2 (o + limit) ++ (image.drop o).take limit, state := s } := by
  rw [readAnswer_eq image o limit s (by omega), if_pos h]

theorem readAnswer_done (ho : o ≤ image.length) (h : image.length ≤ o + limit) (s : State) :
    readAnswer image o limit s =
      { outcome := .done, data := be2 image.length ++ image.drop o, state := s } := by
  rw [readAnswer_eq image o limit s ho, if_neg (by omega)]

/-- Each reply but the last brings `limit` bytes more, so that as many reads as bytes are left suffice, and one. -/
theorem readChain_eq_drop (hlimit : 1 ≤ limit) (hsmall : image.length < 65536) (s : State) :
    ∀ (fuel o : Nat), o ≤ image.length → image.length < o + fuel →
      readChain image limit s fuel o = image.drop o
  | 0, o, ho, hfuel => by omega
  | fuel + 1, o, ho, hfuel => by
    rw [readChain]
    by_cases h : o + limit < image.length
    · have ih := readChain_eq_drop hlimit hsmall s fuel (o + limit) h.le (by omega)
      have hnext : ofBytes ((be2 (o + limit) ++ (image.drop o).take limit).take 2) = o + limit :=
        ofBytes_be2 (by omega)
      rw [readAnswer_more h]
      dsimp only
      rw [if_pos rfl, hnext, ih, ← List.drop_drop]
      exact List.take_append_drop limit (image.drop o)
    · rw [readAnswer_done ho (by omega)]
      rfl

end

/-- Settles O16: the three cases of a read, and the chain from offset 0. -/
theorem readChainsBringTheImage : Obligations.ReadChainsBringTheImage := by
  intro image limit s hlow _ hsmall
  refine ⟨fun o ho => by rw [readAnswer_range image o limit s ho, refuse_outcome], fun o ho => readAnswer_more ho s,
    fun o ho hlast => readAnswer_done ho hlast s, ?_⟩
  exact readChain_eq_drop (by omega) hsmall s _ 0 (Nat.zero_le _) (by omega)

/-! ### Rights, restart and unknown names (R27, R33, R37) -/

section

variable {rq : Request} {s : State}

/-- The privileged link grants and revokes disjoint sets without PERMISSIONS (R33). -/
theorem setPermissionsAnswer_granted (hp : rq.src = s.executor.privileged) (h : rq.classSet 0 &&& rq.classSet 2 = 0)
    (hbit : (rq.classSet 0 ||| rq.classSet 2).getLsbD 11 = false) :
    setPermissionsAnswer rq s =
      { outcome := .done
        data := be2 ((s.executor.permissions ||| rq.classSet 0) &&& ~~~rq.classSet 2).toNat ++
          [byteOf (Link.code s.executor.privileged)]
        state := s.withExecutor
          { s.executor with permissions := (s.executor.permissions ||| rq.classSet 0) &&& ~~~rq.classSet 2 } } := by
  unfold setPermissionsAnswer
  exact (if_pos hp).trans ((if_neg fun hn => hn h).trans (if_neg (by rw [hasBit, PermClass.bit, hbit]; decide)))

/-- The other link may ask for the map (R33). -/
theorem setPermissionsAnswer_asked (hp : rq.src ≠ s.executor.privileged) (h0 : rq.classSet 0 = 0)
    (h2 : rq.classSet 2 = 0) :
    setPermissionsAnswer rq s = { outcome := .done, data := permissionData s, state := s } := by
  unfold setPermissionsAnswer
  exact (if_neg hp).trans (if_pos ⟨h0, h2⟩)

theorem softRestartAnswer_awaited (hn : s.executor.restartPending = none) (hc : s.carrier.state = .off)
    (hw : rq.wantsReply = true) :
    softRestartAnswer rq s =
      carriedOut false (s.withExecutor { s.executor with restartPending := some rq.src }) := by
  unfold softRestartAnswer
  rw [hn, if_neg (by simp), if_neg (fun hne => hne hc), hw, if_neg (by simp)]

theorem knownName_iff (b : Byte) :
    knownName b = true ↔ (1 ≤ b.toNat ∧ b.toNat ≤ 27) ∨ (32 ≤ b.toNat ∧ b.toNat ≤ 38) := by
  simp only [knownName, requestNames, List.contains_eq_mem, List.mem_append, List.mem_map, List.mem_range,
    decide_eq_true_eq]
  constructor
  · rintro (⟨i, hi, he⟩ | ⟨i, hi, he⟩) <;> omega
  · rintro (h | h)
    · exact .inl ⟨b.toNat - 1, by omega, by omega⟩
    · exact .inr ⟨b.toNat - 32, by omega, by omega⟩

/-- The frame that the executor takes from the link it serves (R26). -/
theorem nextTake_cons {src : Link} {f : ReqFrame} {q : List ReqFrame} (hq : (s.link src).queue = f :: q)
    (hs : serves s src = true) : nextTake s src = some f := by
  rw [nextTake, hs, hq]
  rfl

theorem takeUnknown_of_short {src : Link} {f : ReqFrame} {q : List ReqFrame} (hq : (s.link src).queue = f :: q)
    (hs : serves s src = true) (h : f.payload.length < 3) : takeUnknown src s = popTaken src s := by
  rw [takeUnknown, nextTake_cons hq hs]
  dsimp only
  rw [(requestOf_none_iff src f).2 h]

theorem takeUnknown_of_unknown {src : Link} {name : Byte} (htakes : Takes name src s rq)
    (h : knownName rq.name = false) :
    takeUnknown src s = finishTake rq (refuse .unknownRequest (popTaken src s)) := by
  obtain ⟨f, q, hq, hs, hrq, -⟩ := htakes
  rw [takeUnknown, nextTake_cons hq hs]
  dsimp only
  rw [hrq]
  dsimp only
  rw [h, if_neg Bool.false_ne_true]

end

/-- Settles O18: each take passes its first checks, and its answer is the one stated. -/
theorem rightsAndRestartRequestsTakeEffect : Obligations.RightsAndRestartRequestsTakeEffect := by
  intro src s rq s1
  refine ⟨fun grant revoke htakes hlen hg hr => ⟨fun hpriv hdisjoint hbit map hmap => ?_, fun hpriv h0 h2 => ?_⟩,
    fun htakes hlen hperm hn hc hwanted hb => ?_, fun htakes hname => ?_, fun f q hq hs hshort => ?_⟩
  · subst hg hr hmap
    refine congrArg _ ((take_lengthChecked htakes _ hlen).trans (congrArg _ ?_))
    obtain rfl := htakes.src
    have hdata : s1.executor.privileged = rq.src := hpriv.symm
    rw [setPermissionsAnswer_granted (s := s1) hpriv hdisjoint hbit, hdata]
    rfl
  · subst hg hr
    refine congrArg _ ((take_lengthChecked htakes _ hlen).trans (congrArg _ ?_))
    obtain rfl := htakes.src
    exact setPermissionsAnswer_asked (s := s1) hpriv h0 h2
  · refine congrArg _ ((take_checked htakes _ hlen hperm).trans (congrArg _ ?_))
    obtain rfl := htakes.src
    exact softRestartAnswer_awaited (s := s1) hn hc (by simp [Request.wantsReply, hwanted, hb])
  · refine congrArg _ (takeUnknown_of_unknown htakes ?_)
    rw [← Bool.not_eq_true, knownName_iff]
    exact hname
  · exact congrArg _ (takeUnknown_of_short hq hs hshort)

end Sys2Proof.Machine

/-! PROOFS. The reads: the image of each object, its length and its cut (O30), and READ_STATUS, which captures the record and
then clears (O31). -/

namespace Sys2Proof.Machine

/-! ### The length of an image (12.8) -/

@[simp] theorem shapeBytes_length (d : DipShape) : (shapeBytes d).length = 6 := rfl

@[simp] theorem packSymbols_length (n : Nat) (symbols : List Symbol) : (packSymbols n symbols).length = n := by
  simp [packSymbols]

/-- Objects of k bytes each, one after the other. -/
theorem length_flatMap_of_const {α : Type} {f : α → List Byte} {k : Nat} (h : ∀ x, (f x).length = k) (xs : List α) :
    (xs.flatMap f).length = k * xs.length := by
  induction xs with
  | nil => rfl
  | cons x xs ih => rw [List.flatMap_cons, List.length_append, h, ih, List.length_cons, Nat.mul_succ, Nat.add_comm]

theorem mapImage_length (a : Assembler) (bank1 : Bool) (h0 : a.bank0.length = 61) (h1 : a.bank1.length = 61) :
    (mapImage a bank1).length = 246 := by
  have hbank : (if bank1 then a.bank1 else a.bank0).length = 61 := by cases bank1 <;> assumption
  rw [mapImage, List.length_append, length_flatMap_of_const entryBytes_length, hbank]
  rfl

theorem profileImage_length (k : Keying) (selection i : Fin 4) : (profileImage k selection i).length = 22 := rfl

theorem listsImage_length (r : RuleLists) :
    (listsImage r).length = 8 + 3 * r.leaps.length + 6 * r.transitions.length := by
  simp only [listsImage, List.length_append, List.length_cons, List.length_nil, be2_length,
    length_flatMap_of_const leapBytes_length, length_flatMap_of_const transitionBytes_length]
  omega

theorem stackImage_length (stack : List OverrideEntry) : (stackImage stack).length = 1 + 5 * stack.length := by
  rw [stackImage, List.length_append, length_flatMap_of_const stackEntryBytes_length]
  rfl

theorem wordImage_length (a : Assembler) : (wordImage a).length = 91 := by
  simp [wordImage]

theorem linesImage_length (s : State) : (linesImage s).length = 52 := by
  rw [linesImage, List.length_append, List.length_append, length_flatMap_of_const (lineBytes_length s)]
  rfl

/-! ### What a take leaves in the images (R26, R187, R191) -/

section

variable (src : Link) (s : State)

/-- A take moves no transmitter, so that no output function changes (R18, R182). -/
theorem functionAsserted_popTaken (f : LineFunction) : functionAsserted (popTaken src s) f = functionAsserted s f := by
  cases f with
  | replyDrive l =>
    obtain ⟨-, htx, -⟩ := popTaken_settings src l s
    rw [functionAsserted, htx, functionAsserted]
  | _ => rfl

theorem logicalLevel_popTaken (n : LineId) : logicalLevel (popTaken src s) n = logicalLevel s n := by
  have hout : isOutput (popTaken src s) n = isOutput s n := rfl
  have hholder : holder (popTaken src s) n = holder s n := rfl
  unfold logicalLevel
  rw [hout, hholder]
  simp only [functionAsserted_popTaken]
  rfl

theorem lineBytes_popTaken (n : LineId) : lineBytes (popTaken src s) n = lineBytes s n := by
  have hraw : rawLevel (popTaken src s) n = rawLevel s n := by
    unfold rawLevel
    rw [logicalLevel_popTaken]
    rfl
  unfold lineBytes
  rw [logicalLevel_popTaken, hraw]
  rfl

theorem linesImage_popTaken : linesImage (popTaken src s) = linesImage s := by
  unfold linesImage
  rw [funext (lineBytes_popTaken src s)]
  rfl

theorem statusRecord_popTaken (free : Byte) : statusRecord (popTaken src s) free = statusRecord s free := by
  cases src <;> rfl

end

/-! ### The take of a read (R35) -/

section

variable {name : Byte} {n : Nat} {src : Link} {s : State} {rq : Request} {own : Request → State → Answer}
  {image : List Byte}

/-- A read cuts its image at the source link's return limit, which the take has left as it was. -/
theorem readOn_popTaken (hsrc : rq.src = src) :
    readOn rq image (popTaken src s) =
      readAnswer image (rq.num2 0) (s.link src).settings.returnLimit (popTaken src s) := by
  rw [readOn, hsrc, (popTaken_settings src src s).1]

theorem take_read (htakes : Takes name src s rq) (hlen : rq.args.length = n)
    (hown : own rq (popTaken src s) = readOn rq image (popTaken src s)) :
    takeNamed name (lengthChecked n own) src s =
      finishTake rq (readAnswer image (rq.num2 0) (s.link src).settings.returnLimit (popTaken src s)) := by
  rw [take_lengthChecked htakes own hlen, hown, readOn_popTaken htakes.src]

theorem readMapAnswer_of_bank {bank1 : Bool} (h : bankSelected (rq.arg 2) s.assembler = some bank1) :
    readMapAnswer rq s = readOn rq (mapImage s.assembler bank1) s := by
  rw [readMapAnswer, h]

theorem profileOf_val (i : Fin 4) : profileOf i.val = i := by fin_cases i <;> rfl

theorem readProfileAnswer_of_profile {i : Fin 4} (h : rq.num 2 = i.val) :
    readProfileAnswer rq s = readOn rq (profileImage s.keying s.assembler.selection i) s := by
  rw [readProfileAnswer, h, if_neg (Nat.not_lt.2 (Nat.le_of_lt_succ i.isLt)), profileOf_val]

end

/-- Settles O30: each read's handler reads its image, which the take has left as it was. -/
theorem readsReturnTheImages : Obligations.ReadsReturnTheImages := by
  intro src s rq image o limit answered
  refine ⟨fun bank1 htakes hlen hbank himage ho => ?map, fun bank1 h0 h1 => mapImage_length _ bank1 h0 h1,
    fun i htakes hlen hprofile himage ho => ⟨himage ▸ profileImage_length .., ?profile⟩,
    fun htakes hlen himage ho => ⟨himage ▸ listsImage_length _, ?lists⟩,
    fun htakes hlen himage ho => ⟨himage ▸ stackImage_length _, ?stack⟩,
    fun htakes hlen himage ho => ⟨himage ▸ wordImage_length _, ?word⟩,
    fun htakes hlen himage ho => ⟨himage ▸ linesImage_length _, ?lines⟩⟩
  all_goals
    refine congrArg _ ((take_read htakes hlen ?_).trans (congrArg _ (readAnswer_eq image o limit _ ho)))
  case map => exact himage ▸ readMapAnswer_of_bank hbank
  case profile => exact himage ▸ readProfileAnswer_of_profile hprofile
  case lists | stack | word => exact himage ▸ rfl
  case lines => rw [readLinesAnswer, linesImage_popTaken, himage]

/-! ### READ_STATUS (R174, R191, R192) -/

section

variable {src : Link} {s : State} {rq : Request}

/-- The record is captured as it stands, whatever the take has left of its state (R191). -/
theorem captureStatus_popTaken (hsrc : rq.src = src) :
    ∃ (free : Byte) (draws : Nat), captureStatus rq (popTaken src s) =
      readAnswer (statusRecord s free) (rq.num2 0) (s.link src).settings.returnLimit
        ((popTaken src s).withFreeDraws draws) := by
  refine ⟨Config.absentPendingBalance s.freeDraws, if rq.wantsReply then s.freeDraws + 1 else s.freeDraws, ?_⟩
  have hstate : (if rq.wantsReply then (popTaken src s).withFreeDraws ((popTaken src s).freeDraws + 1) else popTaken src s) =
      (popTaken src s).withFreeDraws (if rq.wantsReply then s.freeDraws + 1 else s.freeDraws) := by
    split <;> rfl
  have hlimit (d : Nat) : (((popTaken src s).withFreeDraws d).link src).settings.returnLimit =
      (s.link src).settings.returnLimit := congrArg LinkSettings.returnLimit (popTaken_settings src src s).1
  rw [captureStatus, hstate, statusRecord_popTaken, readOn, hsrc, hlimit]
  rfl

theorem readStatusAnswer_of_offset {clear : Bool} (hclear : boolOf (rq.arg 2) = some clear) (ho : rq.num2 0 ≤ 64) :
    readStatusAnswer rq s =
      { captureStatus rq s with
        state := if clear then clearStatus (captureStatus rq s).state else (captureStatus rq s).state } := by
  rw [readStatusAnswer, hclear]
  exact if_neg (Nat.not_lt.2 ho)

/-- The clear option leaves every line but for its edge-event flag (R192). -/
theorem clearStatus_line (n : LineId) : (clearStatus s).line n = { s.line n with edgeFlag := false } :=
  PerLine.get_build (fun n => ({ s.line n with edgeFlag := false } : LineState)) n

end

/-- Settles O31: the answer's state is the one of the capture, cleared when asked for. -/
theorem readStatusCapturesThenClears : Obligations.ReadStatusCapturesThenClears := by
  intro src s rq clear htakes hlen hclear ho
  obtain ⟨free, draws, hcapture⟩ := captureStatus_popTaken (s := s) htakes.src
  have hstate : (captureStatus rq (popTaken src s)).state = (popTaken src s).withFreeDraws draws := by
    rw [hcapture, readAnswer_state]
  refine ⟨free, (captureStatus rq (popTaken src s)).outcome, (captureStatus rq (popTaken src s)).data,
    if clear then clearStatus ((popTaken src s).withFreeDraws draws) else (popTaken src s).withFreeDraws draws,
    statusRecord_length s free, ?_, ?_, ?_, ?_⟩
  · refine congrArg _ ((take_lengthChecked htakes _ hlen).trans (congrArg _ ?_))
    rw [readStatusAnswer_of_offset hclear ho, hstate]
  · rw [hcapture, readAnswer_eq _ _ _ _ (by rwa [statusRecord_length]), statusRecord_length]
    split <;> rfl
  · rintro rfl
    rfl
  · rintro rfl
    exact ⟨rfl, clearStatus_line, rfl, rfl⟩

end Sys2Proof.Machine

/-! PROOFS. Refusals (O14): the rows of the request-name list by the checks that their handlers make first, and the answers
that refuse without a change; with them, CONTROL taken part by part (O20). -/

namespace Sys2Proof.Machine

/-! ### The rows by their first checks (R27, R32) -/

/-- The own answers of the requests on links and timebase, and of READ_STATUS. -/
def linkAnswers (wire : WireIn) : List (Request → State → Answer) :=
  [setLinkAnswer wire, setReturnLimitAnswer, disableLinkAnswer wire, enableLinkAnswer wire, setTimebaseAnswer,
    readStatusAnswer]

/-- The own answers of the requests of the list but CONTROL, without the first checks. -/
def ownAnswers (pins : PinIn) (wire : WireIn) : List (Request → State → Answer) :=
  linkAnswers wire ++ (blockAnswers pins ++ readAnswers)

/-- The first checks that the handler of a row makes: length and class as the row gives them, or those of WRITE_MAP or
WRITE_TEST, whose length depends on their count. -/
inductive RequestRow.FirstChecks (pins : PinIn) (wire : WireIn) (row : RequestRow) : Prop
  | checked {n : Nat} {c : PermClass} {own : Request → State → Answer} (hown : own ∈ ownAnswers pins wire)
      (hlength : row.length = some n) (hclass : row.cls = some c) (hhandler : row.handler = checked n c own)
  | lengthChecked {n : Nat} {own : Request → State → Answer} (hown : own ∈ ownAnswers pins wire)
      (hlength : row.length = some n) (hclass : row.cls = none) (hhandler : row.handler = lengthChecked n own)
  | writeMap (hlength : row.length = none) (hhandler : row.handler = writeMapAnswer)
  | writeTest (hlength : row.length = none) (hhandler : row.handler = writeTestAnswer)

theorem row_firstChecks {src : Link} {pins : PinIn} {wire : WireIn} {row : RequestRow}
    (h : row ∈ requestRows src pins wire) : row.FirstChecks pins wire := by
  revert row
  simp only [requestRows, List.forall_mem_cons, List.not_mem_nil, IsEmpty.forall_iff, implies_true, and_true]
  refine ⟨.checked ?_ rfl rfl rfl, .checked ?_ rfl rfl rfl, .lengthChecked ?_ rfl rfl rfl, .lengthChecked ?_ rfl rfl rfl,
    .lengthChecked ?_ rfl rfl rfl, .checked ?_ rfl rfl rfl, .checked ?_ rfl rfl rfl, .checked ?_ rfl rfl rfl,
    .checked ?_ rfl rfl rfl, .checked ?_ rfl rfl rfl, .checked ?_ rfl rfl rfl, .checked ?_ rfl rfl rfl,
    .checked ?_ rfl rfl rfl, .checked ?_ rfl rfl rfl, .writeMap rfl rfl, .checked ?_ rfl rfl rfl,
    .checked ?_ rfl rfl rfl, .checked ?_ rfl rfl rfl, .writeTest rfl rfl, .checked ?_ rfl rfl rfl,
    .checked ?_ rfl rfl rfl, .checked ?_ rfl rfl rfl, .checked ?_ rfl rfl rfl, .checked ?_ rfl rfl rfl,
    .checked ?_ rfl rfl rfl, .checked ?_ rfl rfl rfl, .lengthChecked ?_ rfl rfl rfl, .lengthChecked ?_ rfl rfl rfl,
    .lengthChecked ?_ rfl rfl rfl, .lengthChecked ?_ rfl rfl rfl, .lengthChecked ?_ rfl rfl rfl,
    .lengthChecked ?_ rfl rfl rfl, .lengthChecked ?_ rfl rfl rfl⟩
  all_goals simp [ownAnswers, linkAnswers, blockAnswers, readAnswers]

theorem writeMapOwn_mem (pins : PinIn) (wire : WireIn) : writeMapOwn ∈ ownAnswers pins wire := by
  simp [ownAnswers, blockAnswers]

theorem writeTestOwn_mem (pins : PinIn) (wire : WireIn) : writeTestOwn ∈ ownAnswers pins wire := by
  simp [ownAnswers, blockAnswers]

section

variable {rq : Request} {s : State}

theorem checked_length (n : Nat) (c : PermClass) (own : Request → State → Answer) (h : rq.args.length ≠ n) :
    checked n c own rq s = refuse .length s := if_pos h

theorem checked_permission {n : Nat} {c : PermClass} (own : Request → State → Answer) (hlen : rq.args.length = n)
    (h : permitted s rq.src c = false) : checked n c own rq s = refuse .permission s := by
  rw [checked, if_neg (not_not.2 hlen), h, Bool.not_false, if_pos rfl]

theorem lengthChecked_length (n : Nat) (own : Request → State → Answer) (h : rq.args.length ≠ n) :
    lengthChecked n own rq s = refuse .length s := if_pos h

theorem writeMapAnswer_length (h : rq.args.length ≠ 2 + 4 * rq.num 1) : writeMapAnswer rq s = refuse .length s := if_pos h

theorem writeMapAnswer_permission (hlen : rq.args.length = 2 + 4 * rq.num 1) (h : permitted s rq.src .maps = false) :
    writeMapAnswer rq s = refuse .permission s := by
  rw [writeMapAnswer, if_neg (not_not.2 hlen), h, Bool.not_false, if_pos rfl]

theorem writeTestAnswer_length (h : rq.args.length ≠ 61 ∨ rq.num 0 ≠ 60) : writeTestAnswer rq s = refuse .length s :=
  if_pos h

theorem writeTestAnswer_permission (hlen : rq.args.length = 61) (hcount : rq.num 0 = 60)
    (h : permitted s rq.src .overrides = false) : writeTestAnswer rq s = refuse .permission s := by
  rw [writeTestAnswer, if_neg (by simp [hlen, hcount]), h, Bool.not_false, if_pos rfl]

section

variable {pins : PinIn} {wire : WireIn} {row : RequestRow} {n : Nat}

theorem RequestRow.FirstChecks.refuses_length (h : row.FirstChecks pins wire) (hn : row.length = some n)
    (hne : rq.args.length ≠ n) : row.handler rq s = refuse .length s := by
  cases h with
  | checked _ hlength _ hhandler =>
    cases hn.symm.trans hlength
    exact hhandler ▸ checked_length _ _ _ hne
  | lengthChecked _ hlength _ hhandler =>
    cases hn.symm.trans hlength
    exact hhandler ▸ lengthChecked_length _ _ hne
  | writeMap hlength _ | writeTest hlength _ => cases hn.symm.trans hlength

theorem RequestRow.FirstChecks.refuses_permission (h : row.FirstChecks pins wire) (hn : row.length = some n)
    (hlen : rq.args.length = n) {c : PermClass} (hc : row.cls = some c) (hbarred : permitted s rq.src c = false) :
    row.handler rq s = refuse .permission s := by
  cases h with
  | checked _ hlength hclass hhandler =>
    cases hn.symm.trans hlength
    cases hc.symm.trans hclass
    exact hhandler ▸ checked_permission _ hlen hbarred
  | lengthChecked _ _ hclass _ => cases hc.symm.trans hclass
  | writeMap hlength _ | writeTest hlength _ => cases hn.symm.trans hlength

end

end

/-! ### Answers that refuse without a change (R27, R29) -/

/-- An answer to a request that found the part in state s: refused, it is the refusal of that state. -/
def Answer.RefusesUnchanged (s : State) (an : Answer) : Prop := ∀ r, an.outcome = .refused r → an = refuse r s

section

variable {rq : Request} {s : State}

@[simp] theorem refuse_refusesUnchanged (r : Reason) (s : State) : (refuse r s).RefusesUnchanged s := by
  rintro r' h
  cases h
  rfl

theorem Answer.refusesUnchanged_of_accepted {an : Answer} (h : ∀ r, an.outcome ≠ .refused r) : an.RefusesUnchanged s :=
  fun r hr => absurd hr (h r)

@[simp] theorem carriedOut_refusesUnchanged (clamped : Bool) (s t : State) : (carriedOut clamped t).RefusesUnchanged s :=
  Answer.refusesUnchanged_of_accepted fun _ => by cases clamped <;> exact nofun

@[simp] theorem done_refusesUnchanged (data : List Byte) (s t : State) :
    ({ outcome := .done, data := data, state := t } : Answer).RefusesUnchanged s :=
  Answer.refusesUnchanged_of_accepted fun _ => nofun

/-- A read within the image is not refused (R35). -/
theorem readAnswer_accepted {image : List Byte} {o : Nat} (ho : o ≤ image.length) (limit : Nat) (s : State) (r : Reason) :
    (readAnswer image o limit s).outcome ≠ .refused r := by
  rw [readAnswer_eq image o limit s ho]
  split <;> exact nofun

@[simp] theorem readOn_refusesUnchanged (rq : Request) (image : List Byte) (s : State) :
    (readOn rq image s).RefusesUnchanged s := by
  unfold readOn
  by_cases ho : rq.num2 0 ≤ image.length
  · exact Answer.refusesUnchanged_of_accepted (readAnswer_accepted ho _ s)
  · rw [readAnswer_range _ _ _ _ (Nat.lt_of_not_le ho)]
    exact refuse_refusesUnchanged _ _

theorem readAnswers_refusesUnchanged {own : Request → State → Answer} (h : own ∈ readAnswers) (rq : Request) (s : State) :
    (own rq s).RefusesUnchanged s := by
  revert own
  simp only [readAnswers, List.forall_mem_cons, List.not_mem_nil, IsEmpty.forall_iff, implies_true, and_true]
  and_intros
  all_goals
    simp only [readMapAnswer, readProfileAnswer, readListsAnswer, readStackAnswer, readWordAnswer, readLinesAnswer]
    repeat' split
    all_goals simp

/-- READ_STATUS is refused before its capture, or not at all (R191). -/
theorem readStatusAnswer_refusesUnchanged (rq : Request) (s : State) : (readStatusAnswer rq s).RefusesUnchanged s := by
  unfold readStatusAnswer
  split
  · simp
  · split
    · simp
    · next ho =>
      exact Answer.refusesUnchanged_of_accepted
        (readAnswer_accepted (by rw [statusRecord_length]; exact Nat.le_of_not_lt ho) _ _)

theorem blockAnswers_refusesUnchanged {pins : PinIn} {own : Request → State → Answer} (h : own ∈ blockAnswers pins)
    (rq : Request) (s : State) : (own rq s).RefusesUnchanged s := by
  revert own
  simp only [blockAnswers, List.forall_mem_cons, List.not_mem_nil, IsEmpty.forall_iff, implies_true, and_true]
  and_intros
  all_goals
    simp only [setPermissionsAnswer, softRestartAnswer, setBalanceAnswer, setCivilAnswer, setWindowsAnswer, addLeapAnswer,
      deleteLeapAnswer, addTransitionAnswer, deleteTransitionAnswer, writeMapOwn, copyMapAnswer, commitMapAnswer,
      cancelCommitAnswer, writeTestOwn, pushOverrideAnswer, popOverrideAnswer, removeOverrideAnswer, writeProfileAnswer,
      setRampAnswer, setAssemblySlotAnswer, writeLinesAnswer, writeStrobes]
    repeat' split
    all_goals simp

theorem linkAnswers_refusesUnchanged {wire : WireIn} {own : Request → State → Answer} (h : own ∈ linkAnswers wire)
    (rq : Request) (s : State) : (own rq s).RefusesUnchanged s := by
  revert own
  simp only [linkAnswers, List.forall_mem_cons, List.not_mem_nil, IsEmpty.forall_iff, implies_true, and_true,
    readStatusAnswer_refusesUnchanged]
  and_intros
  all_goals
    simp only [setLinkAnswer, setReturnLimitAnswer, disableLinkAnswer, enableLinkAnswer, setTimebaseAnswer]
    repeat' split
    all_goals simp

theorem ownAnswers_refusesUnchanged {pins : PinIn} {wire : WireIn} {own : Request → State → Answer}
    (h : own ∈ ownAnswers pins wire) (rq : Request) (s : State) : (own rq s).RefusesUnchanged s := by
  simp only [ownAnswers, List.mem_append] at h
  rcases h with hlink | hblock | hread
  · exact linkAnswers_refusesUnchanged hlink rq s
  · exact blockAnswers_refusesUnchanged hblock rq s
  · exact readAnswers_refusesUnchanged hread rq s

/-- A part of CONTROL that is refused refuses the whole, with the state as the take left it (R34). -/
theorem controlAnswer_refusesUnchanged (rq : Request) (s : State) : (controlAnswer rq s).RefusesUnchanged s := by
  unfold controlAnswer
  repeat' split
  all_goals simp

theorem row_refusesUnchanged {src : Link} {pins : PinIn} {wire : WireIn} {row : RequestRow}
    (hrow : row ∈ requestRows src pins wire) (rq : Request) (s : State) : (row.handler rq s).RefusesUnchanged s := by
  have own {own : Request → State → Answer} (h : own ∈ ownAnswers pins wire) := ownAnswers_refusesUnchanged h rq s
  cases row_firstChecks hrow with
  | checked hown _ _ hhandler =>
    rw [hhandler, checked]
    repeat' split
    · simp
    · simp
    · exact own hown
  | lengthChecked hown _ _ hhandler =>
    rw [hhandler, lengthChecked]
    split
    · simp
    · exact own hown
  | writeMap _ hhandler =>
    rw [hhandler, writeMapAnswer]
    repeat' split
    · simp
    · simp
    · exact own (writeMapOwn_mem ..)
  | writeTest _ hhandler =>
    rw [hhandler, writeTestAnswer]
    repeat' split
    · simp
    · simp
    · exact own (writeTestOwn_mem ..)

end

/-! ### The take of a CONTROL (R34; log 4) -/

section

variable {src : Link} {s : State} {rq : Request}

/-- Any of the six commands takes a CONTROL that no row describes. -/
theorem exec_control_of_noRow {c : Instr} (hc : c ∈ controlCommands src) (htakes : Takes 0x07 src s rq)
    (h : givesNoRow rq = true) : exec c s = .next (finishTake rq (controlAnswer rq (popTaken src s))) := by
  obtain ⟨row, hrow⟩ := exec_control hc
  have htaken : takenRequest controlCode src s = some rq := takenRequest_eq_some.2 htakes
  rw [hrow, takeControl, htaken]
  dsimp only
  rw [h, Bool.or_true, if_pos rfl]

theorem givesNoRow_of_length (h : rq.args.length ≠ 6) : givesNoRow rq = true := by
  simp [givesNoRow, givesCarrier, givesCode, givesProfile, givesSpare, h]

theorem givesNoRow_of_no_part (h : ∀ i < 4, rq.gives i = false) : givesNoRow rq = true := by
  simp [givesNoRow, givesCarrier, givesCode, givesProfile, givesSpare, h]

end

/-- Settles O14: the handlers of the rows by their first checks, and CONTROL by its own. -/
theorem refusedRequestsChangeNothing : Obligations.RefusedRequestsChangeNothing := by
  intro src pins wire s rq s1 refused barred unchanged
  have unchanged_of {an : Answer} (h : an.RefusesUnchanged s1) : unchanged an := fun r hr => by
    rw [h r hr]
    exact ⟨rfl, by cases r <;> rfl⟩
  have not_permitted {name : Byte} {c : PermClass} (htakes : Takes name src s rq) (hb : barred c) :
      permitted s1 rq.src c = false := by
    obtain rfl := htakes.src
    simp [s1, permitted, hb.1, hb.2]
  have answered {name : Byte} {handler : Request → State → Answer} {an : Answer} (htakes : Takes name src s rq)
      (han : handler rq s1 = an) : Host.Outcome.next (takeNamed name handler src s) = (.next (finishTake rq an) : Out) := by
    rw [takeNamed_of_takes htakes, han]
  refine ⟨fun row hrow htakes => ?rows, fun htakes => ⟨fun hlen => ?_, fun hlen hb => ?_⟩,
    fun htakes => ⟨fun hlen => ?_, fun hlen hcount hb => ?_⟩, fun htakes hlen c hc => ?control,
    unchanged_of (controlAnswer_refusesUnchanged rq s1)⟩
  case rows =>
    have hchecks := row_firstChecks hrow
    rw [exec_row hrow]
    refine ⟨answered htakes rfl, unchanged_of (row_refusesUnchanged hrow rq s1), fun n hn => ⟨fun hne => ?_,
      fun hlen c hclass hb => ?_⟩⟩
    · exact answered htakes (hchecks.refuses_length hn hne)
    · exact answered htakes (hchecks.refuses_permission hn hlen hclass (not_permitted htakes hb))
  case control =>
    rw [exec_control_of_noRow hc htakes (givesNoRow_of_length hlen), controlAnswer, if_pos hlen]
    rfl
  · exact answered htakes (writeMapAnswer_length hlen)
  · exact answered htakes (writeMapAnswer_permission hlen (not_permitted htakes hb))
  · exact answered htakes (writeTestAnswer_length hlen)
  · exact answered htakes (writeTestAnswer_permission hlen hcount (not_permitted htakes hb))

/-! ### CONTROL part by part (R34) -/

section

variable {rq : Request} {s s1 s2 : State} (hlen : rq.args.length = 6)
include hlen

theorem controlAnswer_of_no_part (h : ∀ i < 4, rq.gives i = false) : controlAnswer rq s = carriedOut false s := by
  simp [controlAnswer, hlen, keptPart, h]

theorem controlAnswer_carrier_refused {r : Reason}
    (h : (if keptPart rq s 0 .carrier then carrierPart (rq.arg 1) s else .ok s) = .error r) :
    controlAnswer rq s = refuse r s := by
  rw [controlAnswer, if_neg (not_not.2 hlen), h]

variable (h1 : (if keptPart rq s 0 .carrier then carrierPart (rq.arg 1) s else .ok s) = .ok s1)
include h1

theorem controlAnswer_code_refused {r : Reason}
    (h2 : (if keptPart rq s 1 .code then codePart (rq.arg 2) s1 else .ok s1) = .error r) :
    controlAnswer rq s = refuse r s := by
  rw [controlAnswer, if_neg (not_not.2 hlen), h1]
  dsimp only
  rw [h2]

/-- Profile select and spare are never refused, and each changes its own field of the assembler. -/
theorem controlAnswer_applied
    (h2 : (if keptPart rq s 1 .code then codePart (rq.arg 2) s1 else .ok s1) = .ok s2) :
    controlAnswer rq s = carriedOut (keptPart rq s 2 .profiles && decide (3 < rq.num 3))
      (s2.withAssembler
        { s2.assembler with
          selection := if keptPart rq s 2 .profiles then profileOf (rq.num 3) else s2.assembler.selection
          spare := if keptPart rq s 3 .spare then (s2.assembler.spare &&& ~~~rq.arg 5) ||| (rq.arg 4 &&& rq.arg 5)
            else s2.assembler.spare }) := by
  rw [controlAnswer, if_neg (not_not.2 hlen), h1]
  dsimp only
  rw [h2]
  cases keptPart rq s 2 .profiles <;> cases keptPart rq s 3 .spare <;> rfl

end

/-- Settles O20: the command of each part given takes the whole, which its answer's cases then describe. -/
theorem controlIsTakenPartByPart : Obligations.ControlIsTakenPartByPart := by
  intro src s rq htakes hlen s0
  obtain rfl := htakes.src
  refine ⟨fun hparts c hc => ?_, ?_⟩
  · rw [exec_control_of_noRow hc htakes (givesNoRow_of_no_part hparts), controlAnswer_of_no_part hlen hparts]
    rfl
  · intro kept answered
    have taken {row : Request → Bool} (hr : row rq = true) :
        Host.Outcome.next (takeControl row rq.src s) = (.next (finishTake rq (controlAnswer rq s0)) : Out) :=
      congrArg _ (takeControl_of_takes htakes hr)
    have answered_of {an : Answer} (han : controlAnswer rq s0 = an) : answered an := by
      subst han
      exact ⟨fun hg hcode => taken (by simp [givesCarrier, Request.gives, hlen, hg, hcode, boolOf]),
        fun hg hcode => taken (by simp [givesCarrier, Request.gives, hlen, hg, hcode, boolOf]),
        fun hg hcode => taken (by simp [givesCode, Request.gives, hlen, hg, hcode, boolOf]),
        fun hg hcode => taken (by simp [givesCode, Request.gives, hlen, hg, hcode, boolOf]),
        fun hg => taken (by simp [givesProfile, Request.gives, hlen, hg]),
        fun hg => taken (by simp [givesSpare, Request.gives, hlen, hg])⟩
    exact ⟨fun r h => answered_of (controlAnswer_carrier_refused (s := s0) hlen h), fun s1 h1 =>
      ⟨fun r h2 => answered_of (controlAnswer_code_refused (s := s0) hlen h1 h2), fun s2 h2 =>
        answered_of (controlAnswer_applied (s := s0) hlen h1 h2)⟩⟩

end Sys2Proof.Machine

/-! PROOFS. Events leave the executor, the strap result and the replies held as they are, but for a power-on reset and the end of
a reply (R31, R38, R185): event by event, as far as O56 and O59 need it. -/

namespace Sys2Proof.Machine

/-- The second state has the first one's executor and strap result, and each transmitter holds a reply where it did. -/
structure State.SameExecutor (s t : State) : Prop where
  executor : t.executor = s.executor
  strap : t.lineUnit.strap = s.lineUnit.strap
  holdsReply : ∀ l, (t.link l).tx.holdsReply = (s.link l).tx.holdsReply

namespace State.SameExecutor

variable {s0 s t : State}

theorem refl (s : State) : s.SameExecutor s := ⟨rfl, rfl, fun _ => rfl⟩

/-- What changes neither executor, strap result nor links. -/
theorem congr (h : s0.SameExecutor s) (he : t.executor = s.executor) (hu : t.lineUnit.strap = s.lineUnit.strap)
    (hl : t.links = s.links) : s0.SameExecutor t :=
  ⟨he.trans h.executor, hu.trans h.strap, fun l => by rw [State.link, hl]; exact h.holdsReply l⟩

/-- A link that still holds a reply where it did. -/
theorem setLink (h : s0.SameExecutor s) {l : Link} {ls : LinkState}
    (htx : ls.tx.holdsReply = (s.link l).tx.holdsReply) : s0.SameExecutor (s.setLink l ls) := by
  refine ⟨h.executor, h.strap, fun k => ?_⟩
  rw [State.link_setLink]
  split
  · next hk => rw [htx, hk]; exact h.holdsReply l
  · exact h.holdsReply k

/-! ### What a link receives (R4 to R12) -/

theorem setRx (h : s0.SameExecutor s) (l : Link) (rx : RxState) : s0.SameExecutor (setRx l rx s) := h.setLink rfl

theorem recordError (h : s0.SameExecutor s) (l : Link) (k : ErrKind) : s0.SameExecutor (recordError l k s) :=
  (h.setLink (l := l) (ls := (s.link l).recordError k) rfl).congr rfl rfl rfl

theorem muteWith (h : s0.SameExecutor s) (l : Link) (k : ErrKind) : s0.SameExecutor (muteWith l k s) :=
  (h.recordError l k).setRx l .muted

theorem endCharacter (h : s0.SameExecutor s) (l : Link) : s0.SameExecutor (endCharacter l s) := h.setLink rfl

theorem filterFrame (h : s0.SameExecutor s) (l : Link) (hd : Header) (check : Byte) :
    s0.SameExecutor (filterFrame l hd check s) := by
  unfold Machine.filterFrame
  split
  · exact h.muteWith _ _
  · split
    · exact h.muteWith _ _
    · exact h.setRx _ _

theorem filterAddress (h : s0.SameExecutor s) (l : Link) (hd : Header) (corrected : Bool) (check : Byte) :
    s0.SameExecutor (filterAddress l hd corrected check s) := by
  unfold Machine.filterAddress
  split
  · exact h.setRx _ _
  · cases corrected
    · exact h.filterFrame _ _ _
    · exact (h.recordError _ _).filterFrame _ _ _

theorem checkHeader (h : s0.SameExecutor s) (l : Link) (hd : Header) (check : Byte) :
    s0.SameExecutor (checkHeader l hd check s) := by
  unfold Machine.checkHeader
  split
  · exact h.filterAddress _ _ _ _
  · exact h.filterAddress _ _ _ _
  · exact h.muteWith _ _

theorem storePayload (h : s0.SameExecutor s) (l : Link) (hd : Header) (check : Byte) (got : List Byte) :
    s0.SameExecutor (storePayload l hd check got s) := by
  unfold Machine.storePayload
  split
  · exact h.muteWith _ _
  · exact h.setRx _ _

theorem receiveByte (h : s0.SameExecutor s) (l : Link) (b : Byte) : s0.SameExecutor (receiveByte l b s) := by
  unfold Machine.receiveByte
  split
  · split
    · exact h.setRx _ _
    · exact h
  · split
    · exact h.checkHeader _ _ _
    · exact h.setRx _ _
  · split
    · exact h.muteWith _ _
    · exact h.storePayload _ _ _ _
  · exact h

theorem receiveFault (h : s0.SameExecutor s) (l : Link) (k : ErrKind) : s0.SameExecutor (receiveFault l k s) := by
  unfold Machine.receiveFault
  split
  · exact h
  · exact h.muteWith _ _
  · exact h.muteWith _ _
  · exact h

theorem takeFrame (h : s0.SameExecutor s) (l : Link) (hd : Header) (payload : List Byte) :
    s0.SameExecutor (takeFrame l hd payload s) := by
  unfold Machine.takeFrame takeEpoch takeRequestFrame
  split
  · dsimp only
    split
    · exact (h.recordError _ _).setLink rfl
    · exact h.setLink rfl
  · split
    · split
      · exact h.recordError _ _
      · split
        · exact h.recordError _ _
        · exact h.setLink rfl
    · exact h

theorem receiveIdle (h : s0.SameExecutor s) (l : Link) : s0.SameExecutor (receiveIdle l s) := by
  unfold Machine.receiveIdle
  split
  · exact h
  · exact (h.recordError _ _).setRx _ _
  · split
    · exact (h.setRx _ _).takeFrame _ _ _
    · exact (h.recordError _ _).setRx _ _
  · exact h.setRx _ _

end State.SameExecutor

/-! ### The strap result (R185) -/

section

variable (s : State)

@[simp] theorem lineStep_strap (pins : PinIn) : (lineStep pins s).lineUnit.strap = s.lineUnit.strap := rfl

@[simp] theorem startStrobes_strap (label : Option Label) :
    (startStrobes label s).lineUnit.strap = s.lineUnit.strap := rfl

@[simp] theorem endStrobe_strap (k : Strobe) : (endStrobe k s).lineUnit.strap = s.lineUnit.strap := by
  unfold endStrobe
  split <;> rfl

@[simp] theorem noteEdge_strap (n : LineId) (rising routed : Bool) :
    (noteEdge n rising routed s).lineUnit.strap = s.lineUnit.strap := by rw [noteEdge_unit]

@[simp] theorem takeFilterChange_strap (n : LineId) : (takeFilterChange n s).lineUnit.strap = s.lineUnit.strap := by
  unfold takeFilterChange
  split <;> simp

@[simp] theorem applyLineSettings_strap (n : LineId) (w : LineSettings) (pins : PinIn) :
    (applyLineSettings n w pins s).lineUnit.strap = s.lineUnit.strap := by
  unfold applyLineSettings
  dsimp only
  split <;> simp

@[simp] theorem takeFilterChanges_strap : (takeFilterChanges s).lineUnit.strap = s.lineUnit.strap := by
  simp [takeFilterChanges, allLines]

@[simp] theorem secondBoundary_strap (cause : BoundaryCause) :
    (secondBoundary cause s).lineUnit.strap = s.lineUnit.strap := by simp [secondBoundary]

@[simp] theorem takeWrap_strap : (takeWrap s).lineUnit.strap = s.lineUnit.strap := by
  unfold takeWrap
  split <;> simp

@[simp] theorem steer_strap (x : Link) (e : Int) : (steer x e s).lineUnit.strap = s.lineUnit.strap := by
  unfold steer
  split
  · simp
  · split <;> simp

@[simp] theorem adopt_strap (x : Link) (f : EpochFrame) (e : Int) :
    (adopt x f e s).lineUnit.strap = s.lineUnit.strap := by
  unfold adopt
  dsimp only
  split
  · simp
  · split <;> simp

@[simp] theorem revertiveTest_strap (x : Link) (f : EpochFrame) (e : Int) :
    (revertiveTest x f e s).lineUnit.strap = s.lineUnit.strap := by
  unfold revertiveTest
  split
  · split <;> simp
  · simp

@[simp] theorem goodSecond_strap (x : Link) (f : EpochFrame) (e : Int) :
    (goodSecond x f e s).lineUnit.strap = s.lineUnit.strap := by
  unfold goodSecond
  dsimp only
  split
  · simp
  · split
    · split <;> simp
    · simp

end

namespace State.SameExecutor

variable {s0 s : State}

/-! ### Pulses, missing seconds and the keying step (R40 to R45) -/

/-- Consuming the latch and judging the second moves no reply (R44). -/
theorem judgeSecond (h : s0.SameExecutor s) (x : Link) : s0.SameExecutor (judgeSecond x s) := by
  have consumed : s0.SameExecutor (consumePulse x s) :=
    (h.setLink (l := x) (ls := { s.link x with latch := none }) rfl).congr rfl rfl rfl
  have noted (frame : Option EpochFrame) : s0.SameExecutor (noteFrame x frame (consumePulse x s)) := by
    unfold noteFrame
    split
    · exact consumed
    · split
      · exact consumed.congr (by simp) (by simp) (by simp)
      · exact consumed.recordError _ _
  have counted : s0.SameExecutor
      (noteStray x (pulseOffset s.timebase.m) (noteFrame x (s.link x).latch (consumePulse x s))) :=
    (noted (s.link x).latch).congr (by simp) (by simp) (by simp)
  unfold Machine.judgeSecond
  dsimp only
  split
  · exact counted.congr (by simp) (by simp) (by simp)
  · exact counted.congr (by simp) (by simp) (by simp)
  · exact counted.congr (by simp) (by simp) (by simp)

theorem takePulse (h : s0.SameExecutor s) (x : Link) : s0.SameExecutor (takePulse x s) := by
  unfold Machine.takePulse
  split
  · exact h
  · split
    · exact h.congr rfl rfl rfl
    · exact h.judgeSecond x

theorem takeWaiting (h : s0.SameExecutor s) (x : Link) : s0.SameExecutor (takeWaiting x s) := by
  unfold Machine.takeWaiting
  split
  · refine takePulse ?_ x
    exact h.congr rfl rfl rfl
  · exact h

theorem takeMissing (h : s0.SameExecutor s) (x : Link) : s0.SameExecutor (takeMissing x s) :=
  h.congr (by simp) (by simp) (by simp)

theorem takeL6Pulse (h : s0.SameExecutor s) : s0.SameExecutor (takeL6Pulse s) := by
  unfold Machine.takeL6Pulse
  split
  · refine takePulse ?_ .b
    exact h.congr rfl rfl rfl
  · exact h

theorem takeEdge (h : s0.SameExecutor s) (i : PulseInput) : s0.SameExecutor (takeEdge i s) := by
  cases i with
  | ppsA => exact h.takePulse .a
  | ppsB =>
    simp only [Machine.takeEdge]
    split
    · exact h
    · exact h.takePulse .b
  | lineL6 => exact h.takeL6Pulse

theorem takeFilterChange (h : s0.SameExecutor s) (n : LineId) : s0.SameExecutor (takeFilterChange n s) :=
  h.congr (by simp) (by simp) (by simp)

theorem formWrap (h : s0.SameExecutor s) : s0.SameExecutor (formWrap s) := by
  have routed : s0.SameExecutor (if routedL6 s then Machine.takeFilterChange .l6 s else s) := by
    split
    · exact h.takeFilterChange .l6
    · exact h
  exact routed.takeL6Pulse.congr (by simp [Machine.formWrap]) (by simp [Machine.formWrap]) (by simp [Machine.formWrap])

theorem closeStep (h : s0.SameExecutor s) : s0.SameExecutor (closeStep s) := by
  have filtered : s0.SameExecutor (takeFilterChanges s) := h.congr (by simp) (by simp) (by simp)
  have wrapped : s0.SameExecutor (if (takeFilterChanges s).timebase.wrapDue then Machine.formWrap (takeFilterChanges s)
      else Machine.takeL6Pulse (takeFilterChanges s)) := by
    split
    · exact filtered.formWrap
    · exact filtered.takeL6Pulse
  exact ((wrapped.takeMissing .a).takeMissing .b).congr (by simp [Machine.closeStep]) (by simp [Machine.closeStep])
    (by simp [Machine.closeStep])

theorem openStep (h : s0.SameExecutor s) (pins : PinIn) : s0.SameExecutor (openStep pins s) :=
  h.congr (by simp) (by simp [Machine.openStep]) (by simp)

theorem execPulse {t : State} (h : s0.SameExecutor s) (i : PulseEdges) (ht : execPulse i s = .next t) :
    s0.SameExecutor t := by
  have hwrap (w : Bool) {u : State} (hu : s0.SameExecutor u) : s0.SameExecutor (if w then Machine.formWrap u else u) := by
    cases w
    · exact hu
    · exact hu.formWrap
  obtain ⟨input, also⟩ := i
  obtain rfl := Host.Outcome.next.inj ht
  cases also with
  | some k => exact hwrap _ ((h.takeEdge input).takeEdge k)
  | none => exact hwrap _ (h.takeEdge input)

end State.SameExecutor

/-! ### The events -/

/-- Every event but a power-on reset and the end of a reply leaves the executor, the strap result and the replies held as they
are. -/
theorem event_sameExecutor {c : Instr} {s t : State} (hc : sourceOf c = none) (hreset : ∀ pins, c ≠ .powerOnReset pins)
    (hreply : ∀ l, c ≠ .replyComplete l) (ht : exec c s = .next t) : s.SameExecutor t := by
  have h := State.SameExecutor.refl s
  cases c <;> simp only [sourceOf, reduceCtorEq] at hc
  case powerOnReset pins => exact absurd rfl (hreset pins)
  case replyComplete l => exact absurd rfl (hreply l)
  case pulse i => exact h.execPulse i ht
  all_goals obtain rfl := Host.Outcome.next.inj ht
  case byteReceived l ch =>
    split
    · split
      · exact h.endCharacter l
      · split
        · exact (h.endCharacter l).receiveByte l _
        · exact h
        · exact h
    · exact h
  case characterFault l ch =>
    split
    · split
      · exact h.endCharacter l
      · split
        · exact h
        · exact (h.endCharacter l).receiveFault l _
        · exact (h.endCharacter l).receiveFault l _
    · exact h
  case idle l =>
    split
    · exact h.receiveIdle l
    · exact h
  case leadExpiry l =>
    split
    · next htx => exact h.setLink (by rw [htx]; rfl)
    all_goals exact h
  case tailExpiry l =>
    split
    · next htx => exact h.setLink (by rw [htx]; rfl)
    · exact h
  case characterInProgressCompleted l =>
    split
    · next htx => exact h.setLink (by rw [htx]; rfl)
    all_goals exact h
  case keyingStep pins => exact ((h.closeStep.openStep pins).takeWaiting .a).takeWaiting .b
  case flywheelWrap =>
    split
    · exact h.formWrap
    · exact h
  case missingSecond x => exact h.takeMissing x
  case lineFilterChange n => exact h.takeFilterChange n
  case assemblyCompletion | strobeEnd => exact h.congr (by simp) (by simp) (by simp)
  case risingComplete | fallingComplete =>
    split
    · exact h
    · exact h.congr (by simp) (by simp) (by simp)

end Sys2Proof.Machine

/-! PROOFS. What every request keeps of privilege, strap result, permissions, awaited restart and active bank; with it and the
events, the executor's invariant (O56) and the rule over all commands (O59). -/

namespace Sys2Proof.Machine

/-! ### What a request keeps (R31 to R33, R37, R38, R103) -/

/-- What the answer of a request keeps, from the state as the take leaves it: privilege, strap result and active bank; no
grant of PERMISSIONS; and a restart awaited after it was awaited before, with its reply where it was, or is this request's own,
whose reply is still to be offered. -/
structure RequestKeeps (rq : Request) (s t : State) : Prop where
  privileged : t.executor.privileged = s.executor.privileged
  strap : t.lineUnit.strap = s.lineUnit.strap
  activeBank : t.assembler.activeBank = s.assembler.activeBank
  active1 : t.assembler.active1 = s.assembler.active1
  ungranted : s.executor.permissions &&& ~~~0x07FF = 0 → t.executor.permissions &&& ~~~0x07FF = 0
  awaited : ∀ l, t.executor.restartPending = some l →
    (s.executor.restartPending = some l ∧ (t.link l).tx.holdsReply = (s.link l).tx.holdsReply) ∨
      (l = rq.src ∧ rq.wantsReply = true)

section

variable {rq : Request} {s t : State}

theorem RequestKeeps.of_sameExecutor (h : s.SameExecutor t)
    (hbank : t.assembler.activeBank = s.assembler.activeBank) (hactive : t.assembler.active1 = s.assembler.active1) :
    RequestKeeps rq s t :=
  ⟨by rw [h.executor], h.strap, hbank, hactive, fun hp => by rwa [h.executor],
    fun l hl => .inl ⟨by rwa [h.executor] at hl, h.holdsReply l⟩⟩

theorem RequestKeeps.refl (rq : Request) (s : State) : RequestKeeps rq s s := .of_sameExecutor (.refl s) rfl rfl

/-! ### Links, rights and the part (R20 to R22, R33, R36, R37) -/

theorem Tx.withBegun_holdsReply (tx : Tx) (p : Parity) (n : Nat) : (tx.withBegun p n).holdsReply = tx.holdsReply := by
  cases tx <;> rfl

theorem setLinkAnswer_keeps (wire : WireIn) (rq : Request) (s : State) :
    RequestKeeps rq s (setLinkAnswer wire rq s).state := by
  unfold setLinkAnswer
  split
  · refine .of_sameExecutor ?_ rfl rfl
    exact (State.SameExecutor.refl s).setLink (Tx.withBegun_holdsReply ..)
  · exact .refl rq s

theorem setReturnLimitAnswer_keeps (rq : Request) (s : State) : RequestKeeps rq s (setReturnLimitAnswer rq s).state := by
  refine .of_sameExecutor ?_ rfl rfl
  exact (State.SameExecutor.refl s).setLink rfl

/-- A link disabled gives up the restart awaited on it (R21, R38). -/
theorem disableEffect_keeps (rq : Request) (x : Link) (wire : WireIn) (s : State) :
    RequestKeeps rq s (disableEffect x wire s) := by
  refine ⟨by simp [disableEffect], by simp [disableEffect], by simp [disableEffect], by simp [disableEffect],
    fun hp => by simpa [disableEffect] using hp, fun l hl => .inl ?_⟩
  have hpending : (disableEffect x wire s).executor.restartPending =
      if s.executor.restartPending = some x then none else s.executor.restartPending := by
    simp only [disableEffect, noteLimited_frame]
    rfl
  rw [hpending] at hl
  split at hl
  · cases hl
  · next hne =>
    obtain rfl := Link.eq_other_of_ne fun he : l = x => hne (he ▸ hl)
    exact ⟨hl, by simp [disableEffect]⟩

theorem disableLinkAnswer_keeps (wire : WireIn) (rq : Request) (s : State) :
    RequestKeeps rq s (disableLinkAnswer wire rq s).state := by
  unfold disableLinkAnswer
  repeat' split
  · exact .refl rq s
  · exact .refl rq s
  · exact .refl rq s
  · exact disableEffect_keeps ..
  · exact .refl rq s

theorem enableEffect_keeps (rq : Request) (x : Link) (wire : WireIn) (s : State) :
    RequestKeeps rq s (enableEffect x wire s) := by
  refine .of_sameExecutor ?_ rfl rfl
  exact ((State.SameExecutor.refl s).setLink (l := x)
    (ls := { s.link x with enabled := true, rx := .hunt, skipping := wire.underWay }) rfl).congr rfl rfl rfl

theorem enableLinkAnswer_keeps (wire : WireIn) (rq : Request) (s : State) :
    RequestKeeps rq s (enableLinkAnswer wire rq s).state := by
  unfold enableLinkAnswer
  repeat' split
  · exact .refl rq s
  · exact .refl rq s
  · exact .refl rq s
  · exact .refl rq s
  · exact enableEffect_keeps ..

theorem setTimebaseAnswer_keeps (rq : Request) (s : State) : RequestKeeps rq s (setTimebaseAnswer rq s).state := by
  unfold setTimebaseAnswer
  split
  · exact .refl rq s
  · exact .of_sameExecutor ((State.SameExecutor.refl s).congr (by simp) (by simp) (by simp)) (by simp) (by simp)

/-- A class set names none of the bits from PERMISSIONS on when its bits from there are clear (R32). -/
theorem and_not_classes_eq_zero_iff (v : BitVec 16) :
    v &&& ~~~0x07FF = 0 ↔ ∀ i, 11 ≤ i → i < 16 → v.getLsbD i = false := by
  have hmask : ∀ i < 16, (~~~0x07FF : BitVec 16).getLsbD i = decide (11 ≤ i) := by decide
  constructor
  · intro h i h11 h16
    have hbit : (v &&& ~~~0x07FF).getLsbD i = false := by rw [h]; exact BitVec.getLsbD_zero
    rwa [BitVec.getLsbD_and, hmask i h16, decide_eq_true h11, Bool.and_true] at hbit
  · intro h
    refine BitVec.eq_of_getLsbD_eq fun i hi => ?_
    rw [BitVec.getLsbD_and, hmask i hi]
    by_cases h11 : 11 ≤ i
    · simp [h i h11 hi]
    · simp [h11]

/-- What is granted lies within the classes up to RESTART when it does not name PERMISSIONS (R33; log 17). -/
theorem granted_and_not_classes {permissions grant revoke : BitVec 16} {n : Nat} (hp : permissions &&& ~~~0x07FF = 0)
    (hg : grant = BitVec.ofNat 16 n &&& classMask) (hbit : (grant ||| revoke).getLsbD 11 = false) :
    (permissions ||| grant) &&& ~~~revoke &&& ~~~0x07FF = 0 := by
  have hmask : ∀ i, 12 ≤ i → i < 16 → classMask.getLsbD i = false := by decide
  rw [and_not_classes_eq_zero_iff] at hp ⊢
  intro i h11 h16
  have hgrant : grant.getLsbD i = false := by
    rcases Nat.eq_or_lt_of_le h11 with rfl | h12
    · rw [BitVec.getLsbD_or, Bool.or_eq_false_iff] at hbit
      exact hbit.1
    · rw [hg, BitVec.getLsbD_and, hmask i h12 h16, Bool.and_false]
  rw [BitVec.getLsbD_and, BitVec.getLsbD_or, hp i h11 h16, hgrant, Bool.or_self, Bool.false_and]

theorem setPermissionsAnswer_keeps (rq : Request) (s : State) : RequestKeeps rq s (setPermissionsAnswer rq s).state := by
  unfold setPermissionsAnswer
  dsimp only
  split
  · split
    · exact .refl rq s
    · split
      · exact .refl rq s
      · next hbit =>
        exact ⟨rfl, rfl, rfl, rfl, fun hp => granted_and_not_classes hp rfl (Bool.eq_false_of_not_eq_true hbit),
          fun l hl => .inl ⟨hl, rfl⟩⟩
  · split <;> exact .refl rq s

/-- A restart is awaited by a request that wants a reply (R37). -/
theorem softRestartAnswer_keeps (rq : Request) (s : State) : RequestKeeps rq s (softRestartAnswer rq s).state := by
  unfold softRestartAnswer
  repeat' split
  · exact .refl rq s
  · exact .refl rq s
  · exact .refl rq s
  · next hwants =>
    refine ⟨rfl, rfl, rfl, rfl, id, fun l hl => .inr ⟨(Option.some.inj hl).symm, ?_⟩⟩
    simpa using hwants

/-! ### The banks (R103 to R106) -/

@[simp] theorem Assembler.active1_setShadow (a : Assembler) (bank : List MapEntry) :
    (a.setShadow bank).active1 = a.active1 := by
  unfold Assembler.setShadow
  split <;> rfl

theorem setShadow_keeps (rq : Request) (s : State) (bank : List MapEntry) :
    RequestKeeps rq s (s.withAssembler (s.assembler.setShadow bank)) :=
  .of_sameExecutor ⟨rfl, rfl, fun _ => rfl⟩ (Assembler.activeBank_setShadow ..) (Assembler.active1_setShadow ..)

theorem writeMapOwn_keeps (rq : Request) (s : State) : RequestKeeps rq s (writeMapOwn rq s).state := by
  unfold writeMapOwn
  dsimp only
  repeat' split
  · exact .refl rq s
  · exact .refl rq s
  · exact .refl rq s
  · exact setShadow_keeps ..

theorem copyMapAnswer_keeps (rq : Request) (s : State) : RequestKeeps rq s (copyMapAnswer rq s).state := by
  unfold copyMapAnswer
  split
  · exact .refl rq s
  · exact setShadow_keeps ..

/-! ### The lines (R173, R186) -/

/-- A HALT marks the current word, and leaves the banks (R161, R173). -/
theorem noteHalt_banks (before s : State) :
    (noteHalt before s).assembler.activeBank = s.assembler.activeBank ∧
      (noteHalt before s).assembler.active1 = s.assembler.active1 := by
  rw [noteHalt_eq]
  split
  · rw [haltAssertion_assembler]
    split
    · rw [markBroken_assembler]
      exact ⟨rfl, rfl⟩
    · exact ⟨rfl, rfl⟩
  · exact ⟨rfl, rfl⟩

theorem applyLineSettings_banks (n : LineId) (w : LineSettings) (pins : PinIn) (s : State) :
    (applyLineSettings n w pins s).assembler.activeBank = s.assembler.activeBank ∧
      (applyLineSettings n w pins s).assembler.active1 = s.assembler.active1 := by
  unfold applyLineSettings
  dsimp only
  rw [(noteHalt_banks _ _).1, (noteHalt_banks _ _).2]
  split <;> simp

theorem writeLinesAnswer_keeps (pins : PinIn) (rq : Request) (s : State) :
    RequestKeeps rq s (writeLinesAnswer pins rq s).state := by
  unfold writeLinesAnswer
  split
  · split
    · exact .refl rq s
    · next n _ _ w _ =>
      obtain ⟨hbank, hactive⟩ := applyLineSettings_banks n w pins s
      exact .of_sameExecutor ((State.SameExecutor.refl s).congr (by simp) (by simp) (by simp)) hbank hactive
  · split
    · exact .of_sameExecutor ⟨rfl, rfl, fun _ => rfl⟩ rfl rfl
    · exact .refl rq s

/-! ### All answers of the list -/

theorem blockAnswers_keeps {pins : PinIn} {own : Request → State → Answer} (h : own ∈ blockAnswers pins)
    (rq : Request) (s : State) : RequestKeeps rq s (own rq s).state := by
  revert own
  simp only [blockAnswers, List.forall_mem_cons, List.not_mem_nil, IsEmpty.forall_iff, implies_true, and_true,
    setPermissionsAnswer_keeps, softRestartAnswer_keeps, writeMapOwn_keeps, copyMapAnswer_keeps, writeLinesAnswer_keeps]
  and_intros
  all_goals
    simp only [setBalanceAnswer, setCivilAnswer, setWindowsAnswer, addLeapAnswer, deleteLeapAnswer, addTransitionAnswer,
      deleteTransitionAnswer, commitMapAnswer, cancelCommitAnswer, writeTestOwn, pushOverrideAnswer, popOverrideAnswer,
      removeOverrideAnswer, writeProfileAnswer, setRampAnswer, setAssemblySlotAnswer]
    repeat' split
    all_goals exact .of_sameExecutor ⟨rfl, rfl, fun _ => rfl⟩ rfl rfl

/-- The capture moves the counter of free values at most, and the clear option neither executor nor strap result (R192). -/
theorem readStatusAnswer_keeps (rq : Request) (s : State) : RequestKeeps rq s (readStatusAnswer rq s).state := by
  have hcapture : (captureStatus rq s).state = if rq.wantsReply then s.withFreeDraws (s.freeDraws + 1) else s :=
    readAnswer_state ..
  unfold readStatusAnswer
  split
  · exact .refl rq s
  · next clear _ =>
    split
    · exact .refl rq s
    · dsimp only
      rw [hcapture]
      cases clear <;> cases rq.wantsReply <;> exact .of_sameExecutor ⟨rfl, rfl, fun _ => rfl⟩ rfl rfl

theorem linkAnswers_keeps {wire : WireIn} {own : Request → State → Answer} (h : own ∈ linkAnswers wire) (rq : Request)
    (s : State) : RequestKeeps rq s (own rq s).state := by
  revert own
  simp only [linkAnswers, List.forall_mem_cons, List.not_mem_nil, IsEmpty.forall_iff, implies_true, and_true,
    setLinkAnswer_keeps, setReturnLimitAnswer_keeps, disableLinkAnswer_keeps, enableLinkAnswer_keeps,
    setTimebaseAnswer_keeps, readStatusAnswer_keeps]

theorem ownAnswers_keeps {pins : PinIn} {wire : WireIn} {own : Request → State → Answer} (h : own ∈ ownAnswers pins wire)
    (rq : Request) (s : State) : RequestKeeps rq s (own rq s).state := by
  simp only [ownAnswers, List.mem_append] at h
  rcases h with hlink | hblock | hread
  · exact linkAnswers_keeps hlink rq s
  · exact blockAnswers_keeps hblock rq s
  · exact (readAnswers_state hread rq s).symm ▸ .refl rq s

theorem row_keeps {src : Link} {pins : PinIn} {wire : WireIn} {row : RequestRow} (hrow : row ∈ requestRows src pins wire)
    (rq : Request) (s : State) : RequestKeeps rq s (row.handler rq s).state := by
  have hs := RequestKeeps.refl rq s
  cases row_firstChecks hrow with
  | checked hown _ _ hhandler => exact hhandler ▸ checked_state _ _ hs (ownAnswers_keeps hown rq s)
  | lengthChecked hown _ _ hhandler => exact hhandler ▸ lengthChecked_state _ hs (ownAnswers_keeps hown rq s)
  | writeMap _ hhandler => exact hhandler ▸ writeMapAnswer_state hs (ownAnswers_keeps (writeMapOwn_mem pins wire) rq s)
  | writeTest _ hhandler => exact hhandler ▸ writeTestAnswer_state hs (ownAnswers_keeps (writeTestOwn_mem pins wire) rq s)

/-! ### CONTROL (R34) -/

/-- The carrier part changes carrier control alone (R166, R167). -/
theorem carrierPart_withCarrier {b : Byte} (h : carrierPart b s = .ok t) : ∃ c, t = s.withCarrier c := by
  have hoff : ∃ c, carrierOff s = s.withCarrier c := by
    unfold carrierOff
    repeat' split
    all_goals exact ⟨_, rfl⟩
  unfold carrierPart carrierOn at h
  repeat' split at h
  all_goals
    cases h
    try exact ⟨_, rfl⟩
  exact hoff

/-- The code part changes carrier control alone (R168, R169). -/
theorem codePart_withCarrier {b : Byte} (h : codePart b s = .ok t) : ∃ c, t = s.withCarrier c := by
  have hoff : ∃ c, codeOff s = s.withCarrier c := by
    unfold codeOff
    split <;> exact ⟨_, rfl⟩
  unfold codePart codeOn at h
  repeat' split at h
  all_goals
    cases h
    try exact ⟨_, rfl⟩
  exact hoff

theorem withCarrier_of_ite {kept : Bool} {part : Except Reason State} (hpart : part = .ok t → ∃ c, t = s.withCarrier c)
    (h : (if kept then part else .ok s) = .ok t) : ∃ c, t = s.withCarrier c := by
  cases kept
  · cases h
    exact ⟨s.carrier, rfl⟩
  · exact hpart h

theorem controlAnswer_keeps (rq : Request) (s : State) : RequestKeeps rq s (controlAnswer rq s).state := by
  by_cases hlen : rq.args.length = 6
  · cases h1 : (if keptPart rq s 0 .carrier then carrierPart (rq.arg 1) s else .ok s) with
    | error r => exact controlAnswer_carrier_refused hlen h1 ▸ .refl rq s
    | ok s1 =>
      cases h2 : (if keptPart rq s 1 .code then codePart (rq.arg 2) s1 else .ok s1) with
      | error r => exact controlAnswer_code_refused hlen h1 h2 ▸ .refl rq s
      | ok s2 =>
        rw [controlAnswer_applied hlen h1 h2]
        obtain ⟨c1, rfl⟩ := withCarrier_of_ite carrierPart_withCarrier h1
        obtain ⟨c2, rfl⟩ := withCarrier_of_ite codePart_withCarrier h2
        exact .of_sameExecutor ⟨rfl, rfl, fun _ => rfl⟩ rfl rfl
  · rw [controlAnswer, if_pos hlen]
    exact .refl rq s

/-! ### The take (R26 to R28) -/

/-- A request command does nothing, drops a short frame, or finishes the take of a request whose answer keeps what requests
keep. -/
theorem request_cases {c : Instr} {src : Link} (hc : sourceOf c = some src) (ht : exec c s = .next t) :
    t = s ∨ t = popTaken src s ∨
      ∃ rq an, t = finishTake rq an ∧ RequestKeeps rq (popTaken src s) an.state := by
  rcases sourceOf_cases hc with ⟨pins, wire, row, hrow, rfl⟩ | hcontrol | rfl
  · rw [exec_row hrow] at ht
    obtain rfl := Host.Outcome.next.inj ht
    rcases takeNamed_cases row.name row.handler src s with he | ⟨rq, -, he⟩
    · exact .inl he
    · exact .inr (.inr ⟨rq, _, he, row_keeps hrow rq _⟩)
  · obtain ⟨row, hrow⟩ := exec_control hcontrol
    rw [hrow] at ht
    obtain rfl := Host.Outcome.next.inj ht
    rcases takeControl_cases row src s with he | ⟨rq, -, he⟩
    · exact .inl he
    · exact .inr (.inr ⟨rq, _, he, controlAnswer_keeps rq _⟩)
  · obtain rfl := Host.Outcome.next.inj ht
    rcases takeUnknown_cases src s with he | he | ⟨rq, -, he⟩
    · exact .inl he
    · exact .inr (.inl he)
    · exact .inr (.inr ⟨rq, _, he, .refl rq _⟩)

/-- A reply offered is held, in LEAD or SENDING (R18). -/
theorem offerReply_holdsReply (l : Link) (r : Reply) (s : State) : ((offerReply l r s).link l).tx.holdsReply = true := by
  rcases offerReply_cases l r s with ⟨-, -, -, he⟩ | ⟨-, he⟩ <;> rw [he]
  · rw [setTx_link_same]
    rfl
  · rw [sendPoint_link_same]
    rfl

theorem finishTake_holdsReply {an : Answer} (hw : rq.wantsReply = true) :
    ((finishTake rq an).link rq.src).tx.holdsReply = true := by
  rw [finishTake_of_reply an hw]
  exact offerReply_holdsReply ..

/-- The end of a take loses no reply (R18). -/
theorem finishTake_keeps_reply {an : Answer} {l : Link} (h : (an.state.link l).tx.holdsReply = true) :
    ((finishTake rq an).link l).tx.holdsReply = true := by
  cases hw : rq.wantsReply with
  | false => rwa [finishTake_of_no_reply an hw]
  | true =>
    rcases Link.eq_or_eq_other rq.src l with rfl | rfl
    · exact finishTake_holdsReply hw
    · rw [finishTake_of_reply an hw, offerReply_link_other]
      exact h

end

/-! ### The invariant of the executor (O56) -/

section

variable {s t : State}

theorem ExecutorSound.congr (h : ExecutorSound s) (hk : s.SameExecutor t) : ExecutorSound t := by
  obtain ⟨hpriv, hperm, hpending⟩ := h
  refine ⟨by rw [hk.executor, hk.strap, hpriv], by rw [hk.executor, hperm], fun l hl => ?_⟩
  rw [hk.executor] at hl
  rw [hk.holdsReply, hpending l hl]

theorem ExecutorSound.popTaken (h : ExecutorSound s) (src : Link) : ExecutorSound (popTaken src s) := by
  obtain ⟨hpriv, hperm, hpending⟩ := h
  refine ⟨hpriv, hperm, fun l hl => ?_⟩
  obtain ⟨-, htx, -⟩ := popTaken_settings src l s
  rw [htx]
  exact hpending l hl

/-- What an answer keeps, the end of its take makes sound: a restart that the request asks for has its reply offered. -/
theorem ExecutorSound.finishTake {rq : Request} {an : Answer} (h : ExecutorSound s) (hk : RequestKeeps rq s an.state) :
    ExecutorSound (finishTake rq an) := by
  obtain ⟨hpriv, hperm, hpending⟩ := h
  have hexecutor : (Machine.finishTake rq an).executor = an.state.executor := by simp
  have hunit : (Machine.finishTake rq an).lineUnit = an.state.lineUnit := by simp
  refine ⟨by rw [hexecutor, hunit, hk.privileged, hk.strap, hpriv], by rw [hexecutor, hk.ungranted hperm], fun l hl => ?_⟩
  rw [hexecutor] at hl
  rcases hk.awaited l hl with ⟨hbefore, hsame⟩ | ⟨rfl, hw⟩
  · exact finishTake_keeps_reply (hsame.trans (hpending l hbefore))
  · exact finishTake_holdsReply hw

/-- A soft restart awaits no other (R38). -/
theorem ExecutorSound.softRestartEffect (h : ExecutorSound s) (src : Link) (wire : WireIn) :
    ExecutorSound (softRestartEffect src wire s) := by
  obtain ⟨hpriv, hperm, -⟩ := h
  exact ⟨hpriv, hperm, nofun⟩

/-- The end of a reply with which no restart is awaited (R18). -/
theorem ExecutorSound.endReply (h : ExecutorSound s) {l : Link} (hl : s.executor.restartPending ≠ some l) :
    ExecutorSound (endReply l s) := by
  obtain ⟨hpriv, hperm, hpending⟩ := h
  rw [endReply_eq]
  refine ⟨hpriv, hperm, fun k hk => ?_⟩
  obtain rfl := Link.eq_other_of_ne fun he : k = l => hl (he ▸ hk)
  rw [State.link_setLink_other]
  exact hpending _ hk

theorem request_keeps_executor {c : Instr} {src : Link} (hc : sourceOf c = some src) (h : ExecutorSound s)
    (ht : exec c s = .next t) : ExecutorSound t := by
  rcases request_cases hc ht with rfl | rfl | ⟨rq, an, rfl, hk⟩
  · exact h
  · exact h.popTaken src
  · exact (h.popTaken src).finishTake hk

/-- The two events of which the executor takes notice are the power-on reset and the end of a reply. -/
theorem event_keeps_executor {c : Instr} (hc : sourceOf c = none) (h : ExecutorSound s) (ht : exec c s = .next t) :
    ExecutorSound t := by
  by_cases hreset : ∃ pins, c = .powerOnReset pins
  · obtain ⟨pins, rfl⟩ := hreset
    obtain rfl := Host.Outcome.next.inj ht
    exact ⟨rfl, BitVec.zero_and, nofun⟩
  · by_cases hreply : ∃ l, c = .replyComplete l
    · obtain ⟨l, rfl⟩ := hreply
      obtain rfl := Host.Outcome.next.inj ht
      split
      · split
        · exact h.softRestartEffect _ _
        · next hl => exact h.endReply hl
      all_goals exact h
    · exact h.congr (event_sameExecutor hc (not_exists.1 hreset) (not_exists.1 hreply) ht)

end

/-- Settles O56: every command keeps the promises, and taking it from the queue does not touch them. -/
theorem stepKeepsTheExecutor : Obligations.StepKeepsTheExecutor := by
  intro s t h ht
  unfold step at ht
  split at ht
  · obtain rfl := Host.Outcome.next.inj ht
    exact h
  · next c rest _ =>
    have hrest : ExecutorSound (s.withPending rest) := h
    cases hc : sourceOf c with
    | none => exact event_keeps_executor hc hrest ht
    | some src => exact request_keeps_executor hc hrest ht

/-! ### Privilege and the active bank (O59) -/

section

variable {s t : State}

theorem request_keeps_privilege {c : Instr} {src : Link} (hc : sourceOf c = some src) (ht : exec c s = .next t) :
    (t.executor.privileged = s.executor.privileged ∧ t.lineUnit.strap = s.lineUnit.strap) ∧
      t.assembler.activeBank = s.assembler.activeBank ∧ t.assembler.active1 = s.assembler.active1 := by
  rcases request_cases hc ht with rfl | rfl | ⟨rq, an, rfl, hk⟩
  · exact ⟨⟨rfl, rfl⟩, rfl, rfl⟩
  · exact ⟨⟨rfl, rfl⟩, rfl, rfl⟩
  · have hexecutor : (finishTake rq an).executor = an.state.executor := by simp
    have hunit : (finishTake rq an).lineUnit = an.state.lineUnit := by simp
    have hassembler : (finishTake rq an).assembler = an.state.assembler := by simp
    rw [hexecutor, hunit, hassembler]
    exact ⟨⟨hk.privileged, hk.strap⟩, hk.activeBank, hk.active1⟩

theorem event_keeps_privilege {c : Instr} (hc : sourceOf c = none) (hreset : ∀ pins, c ≠ .powerOnReset pins)
    (ht : exec c s = .next t) :
    t.executor.privileged = s.executor.privileged ∧ t.lineUnit.strap = s.lineUnit.strap := by
  by_cases hreply : ∃ l, c = .replyComplete l
  · obtain ⟨l, rfl⟩ := hreply
    obtain rfl := Host.Outcome.next.inj ht
    split
    · split
      · exact ⟨rfl, rfl⟩
      · simp
    all_goals exact ⟨rfl, rfl⟩
  · have hk := event_sameExecutor hc hreset (not_exists.1 hreply) ht
    exact ⟨by rw [hk.executor], hk.strap⟩

end

/-- Settles O59, for the events and the requests. -/
theorem privilegeAndActiveBankAreKept : Obligations.PrivilegeAndActiveBankAreKept := by
  intro c s t ht
  cases hc : sourceOf c with
  | none => exact ⟨fun hreset => event_keeps_privilege hc hreset ht, nofun⟩
  | some src =>
    obtain ⟨hprivilege, hbank⟩ := request_keeps_privilege hc ht
    exact ⟨fun _ => hprivilege, fun _ => hbank⟩

end Sys2Proof.Machine

/-! PROOFS. What keying generator and carrier control keep, and what a pulse comes to as they see it. -/

namespace Sys2Proof.Machine

/-! ### The envelope's ranges, block by block (R146, R163) -/

/-- The keying generator's share of the ranges (R145, R146, R155). -/
structure Keying.InRange (k : Keying) : Prop where
  profile : ∀ i, (k.profiles.get i).Sound
  latch : k.latch.Sound
  keyOut : k.keyOut.amplitude ≤ 1000
  stepAmp : ∀ a ∈ k.stepAmp, a ≤ 1000

/-- Carrier control's share of the ranges (R163 to R165). -/
structure Carrier.InRange (c : Carrier) : Prop where
  rampSetting : 100 ≤ c.rampSetting ∧ c.rampSetting ≤ 10000
  rc : 100 ≤ c.rc ∧ c.rc ≤ 10000
  fr : 100 ≤ c.fr ∧ c.fr ≤ 1000
  position : c.k ≤ c.rc

theorem envelopeSound_iff (s : State) : EnvelopeSound s ↔ s.keying.InRange ∧ s.carrier.InRange := by
  constructor
  · rintro ⟨p0, p1, p2, p3, latch, keyOut, stepAmp, ramp, ramp', rc, rc', fr, fr', k⟩
    refine ⟨⟨fun i => ?_, latch, keyOut, stepAmp⟩, ⟨ramp, ramp'⟩, ⟨rc, rc'⟩, ⟨fr, fr'⟩, k⟩
    fin_cases i <;> assumption
  · rintro ⟨hk, hc⟩
    exact ⟨hk.profile 0, hk.profile 1, hk.profile 2, hk.profile 3, hk.latch, hk.keyOut, hk.stepAmp, hc.rampSetting.1,
      hc.rampSetting.2, hc.rc.1, hc.rc.2, hc.fr.1, hc.fr.2, hc.position⟩

section

variable {s t : State}

theorem EnvelopeSound.keying (h : EnvelopeSound s) : s.keying.InRange := ((envelopeSound_iff s).1 h).1

theorem EnvelopeSound.carrier (h : EnvelopeSound s) : s.carrier.InRange := ((envelopeSound_iff s).1 h).2

theorem EnvelopeSound.congr (h : EnvelopeSound s) (hk : t.keying = s.keying) (hc : t.carrier = s.carrier) :
    EnvelopeSound t := (envelopeSound_iff t).2 ⟨hk ▸ h.keying, hc ▸ h.carrier⟩

theorem EnvelopeSound.of_carrier (h : EnvelopeSound s) (hk : t.keying = s.keying) (hc : t.carrier.InRange) :
    EnvelopeSound t := (envelopeSound_iff t).2 ⟨hk ▸ h.keying, hc⟩

theorem EnvelopeSound.of_keying (h : EnvelopeSound s) (hk : t.keying.InRange) (hc : t.carrier = s.carrier) :
    EnvelopeSound t := (envelopeSound_iff t).2 ⟨hk, hc ▸ h.carrier⟩

/-! ### Amplitudes (R151, R165) -/

/-- A share of a height, taken in n of d parts, is no more than the height. -/
theorem share_le {height n d : Nat} (h : n ≤ d) : height * n / d ≤ height := by
  rcases Nat.eq_zero_or_pos d with rfl | hd
  · simp
  · exact Nat.div_le_of_le_mul (by rw [Nat.mul_comm]; exact Nat.mul_le_mul_right _ h)

theorem dipAmplitude_le {full : Nat} {d : DipShape} (h : d.low ≤ full) (j : Nat) : dipAmplitude full d j ≤ full := by
  unfold dipAmplitude
  split
  · exact Nat.sub_le _ _
  · split
    · exact h
    · split
      · have := share_le (height := full - d.low) (n := j - d.ldip + 1) (d := d.ru) (by omega)
        omega
      · exact le_rfl

theorem sampleAmplitude_le {x : SlotLatch} (h : x.Sound) (j : Nat) : sampleAmplitude x j ≤ 1000 := by
  obtain ⟨-, hfull, -, hshape⟩ := h
  unfold sampleAmplitude
  split
  · next d hd =>
    obtain ⟨-, -, -, -, hlow, -⟩ := hshape d hd
    exact (dipAmplitude_le (Nat.le_of_lt hlow) j).trans hfull
  · exact hfull

theorem rampAmplitude_le {c : Carrier} (h : c.InRange) : rampAmplitude c ≤ 1000 := (share_le h.position).trans h.fr.2

theorem Carrier.InRange.amplitude_le {c : Carrier} (h : c.InRange) : ∀ a ∈ c.amplitude, a ≤ 1000 := by
  unfold Carrier.amplitude
  cases c.state <;> simp [rampAmplitude_le h]

/-! ### Samples and slots (R150, R153) -/

/-- The latch of a symbol from a sound profile (R150). -/
theorem latchOf_sound {profiles : PerProfile Profile} {p : Fin 4} (h : (profiles.get p).Sound) (sym : Symbol) :
    (latchOf profiles p sym).Sound := by
  obtain ⟨hlo, hhi, hzero, hone, hmark⟩ := h
  have shape : ∀ d ∈ (profiles.get p).shape sym, d.Sound (profiles.get p).full := by
    rintro d hd
    cases sym <;> cases hd <;> assumption
  exact ⟨hlo, hhi, by cases sym <;> simp [latchOf, Profile.shape], shape⟩

theorem EnvelopeSound.formSample (h : EnvelopeSound s) (a b : Bool) : EnvelopeSound (formSample a b s) := by
  obtain ⟨profile, latch, keyOut, stepAmp⟩ := h.keying
  refine h.of_keying ⟨profile, latch, ?_, stepAmp⟩ rfl
  rw [formSample_keying]
  dsimp only
  cases hs : s.keying.stepAmp with
  | none => exact sampleAmplitude_le latch _
  | some x => exact stepAmp x hs

theorem EnvelopeSound.setIndex (h : EnvelopeSound s) (j : Nat) :
    EnvelopeSound (s.withKeying { s.keying with j := j }) := h

theorem EnvelopeSound.realign (h : EnvelopeSound s) : EnvelopeSound (realign s) := (h.setIndex 0).formSample false false

theorem EnvelopeSound.slotStart (h : EnvelopeSound s) (label : Option Label) : EnvelopeSound (slotStart label s) := by
  obtain ⟨profile, latch, keyOut, stepAmp⟩ := h.keying
  refine h.of_keying ?_ (by simp)
  rw [slotStart_keying]
  exact ⟨profile, latchOf_sound (profile _) _, keyOut, stepAmp⟩

/-! ### Ramps (R164 to R173) -/

theorem EnvelopeSound.fullInForce (h : EnvelopeSound s) : 100 ≤ fullInForce s ∧ fullInForce s ≤ 1000 := by
  obtain ⟨hlo, hhi, -⟩ := h.keying.profile (profileInForce s)
  exact ⟨hlo, hhi⟩

/-- A ramp begun under the setting and the full level in force, at a position within it (R164). -/
theorem EnvelopeSound.ramp (h : EnvelopeSound s) {c : Carrier} (hset : c.rampSetting = s.carrier.rampSetting)
    (hrc : c.rc = s.carrier.rampSetting) (hfr : c.fr = Machine.fullInForce s) (hk : c.k ≤ s.carrier.rampSetting) :
    c.InRange :=
  ⟨hset ▸ h.carrier.rampSetting, hrc ▸ h.carrier.rampSetting, hfr ▸ h.fullInForce, hrc ▸ hk⟩

/-- A ramp that goes on, at a position within it (R165). -/
theorem Carrier.InRange.move {c d : Carrier} (h : c.InRange) (hset : d.rampSetting = c.rampSetting) (hrc : d.rc = c.rc)
    (hfr : d.fr = c.fr) (hk : d.k ≤ c.rc) : d.InRange :=
  ⟨hset ▸ h.rampSetting, hrc ▸ h.rc, hfr ▸ h.fr, hrc ▸ hk⟩

theorem Carrier.InRange.tick {c : Carrier} (h : c.InRange) : c.tick.InRange := by
  have hk := h.position
  unfold Carrier.tick
  split
  · exact h.move rfl rfl rfl (Nat.zero_le _)
  · exact h.move rfl rfl rfl hk
  · exact h.move rfl rfl rfl (Nat.min_le_left _ _)
  · exact h.move rfl rfl rfl ((Nat.sub_le _ _).trans hk)

theorem EnvelopeSound.completeRising (h : EnvelopeSound s) : EnvelopeSound (completeRising s) := by
  unfold Machine.completeRising
  split
  · exact h
  · exact h

theorem EnvelopeSound.completeFalling (h : EnvelopeSound s) : EnvelopeSound (completeFalling s) := by
  unfold Machine.completeFalling
  split
  · exact h
  · exact h

theorem EnvelopeSound.fallAtBoundary (h : EnvelopeSound s) : EnvelopeSound (fallAtBoundary s) := by
  obtain ⟨profile, latch, keyOut, stepAmp⟩ := h.keying
  have hc : (Machine.fallAtBoundary s).carrier.InRange := h.ramp rfl rfl rfl (Nat.sub_le _ _)
  refine (envelopeSound_iff _).2 ⟨⟨profile, latch, keyOut, fun a ha => ?_⟩, hc⟩
  cases ha
  exact rampAmplitude_le hc

theorem EnvelopeSound.carrierBoundary (h : EnvelopeSound s) (label : Option Label) (handed : Bool) :
    EnvelopeSound (carrierBoundary label handed s) := by
  have stopped : EnvelopeSound (s.withCarrier { s.carrier with code := .off }) := h
  unfold Machine.carrierBoundary
  split
  · split
    · exact h
    · exact h
  · split
    · dsimp only
      split
      · exact stopped.fallAtBoundary
      · exact stopped
    · exact h
  · exact h
  · exact h

/-- A HALT takes the carrier to a position within its ramp (R173). -/
theorem EnvelopeSound.haltAssertion (h : EnvelopeSound s) : EnvelopeSound (haltAssertion s) := by
  refine h.of_carrier (by simp) ?_
  have within (rc fr a : Nat) : positionFor rc fr a ≤ rc := Nat.min_le_left _ _
  rw [haltAssertion_carrier]
  split
  · exact h.ramp rfl rfl rfl (within _ _ _)
  · exact h.carrier.move rfl rfl rfl (within _ _ _)
  · exact h.carrier.move rfl rfl rfl h.carrier.position
  · exact h.carrier.move rfl rfl rfl h.carrier.position

theorem EnvelopeSound.noteHalt (h : EnvelopeSound s) (before : State) : EnvelopeSound (noteHalt before s) := by
  rw [noteHalt_eq]
  split
  · exact h.haltAssertion
  · exact h

theorem EnvelopeSound.takeFilterChange (h : EnvelopeSound s) (n : LineId) : EnvelopeSound (takeFilterChange n s) := by
  unfold Machine.takeFilterChange
  split
  · refine EnvelopeSound.noteHalt ?_ s
    exact h.congr (by simp) (by simp)
  · exact h

/-! ### The boundary and the keying step (R41, R150, R153) -/

theorem EnvelopeSound.startStrobes (h : EnvelopeSound s) {label : Option Label} : EnvelopeSound (startStrobes label s) :=
  h.congr (by simp) (by simp)

theorem EnvelopeSound.secondBoundary (h : EnvelopeSound s) (cause : BoundaryCause) :
    EnvelopeSound (secondBoundary cause s) := by
  unfold Machine.secondBoundary
  generalize hu : noteLimited s (timeBoundary cause (completeAssembly s)) = u
  have labelled : EnvelopeSound (assemblerBoundary u.timeScale.label u) := by
    subst hu
    exact h.congr (by simp) (by simp)
  exact ((labelled.carrierBoundary _ _).slotStart _).startStrobes.formSample _ _

theorem EnvelopeSound.openStep (h : EnvelopeSound s) (pins : PinIn) : EnvelopeSound (openStep pins s) := by
  have moved : EnvelopeSound (lineStep pins (s.withTimebase s.timebase.tick)) := h.congr (by simp) (by simp)
  have stepped : EnvelopeSound (carrierStep (lineStep pins (s.withTimebase s.timebase.tick))) := by
    obtain ⟨profile, latch, keyOut, -⟩ := moved.keying
    have hc := moved.carrier.tick
    exact (envelopeSound_iff _).2 ⟨⟨profile, latch, keyOut, hc.amplitude_le⟩, hc⟩
  unfold Machine.openStep keyingAdvance
  split
  · exact stepped
  · exact (stepped.setIndex _).formSample false false

end

/-! ### What a pulse comes to (R46 to R55) -/

/-- The second state has the first one's keying generator, carrier control and wrap that is due. -/
structure State.SameKeying (s t : State) : Prop where
  keying : t.keying = s.keying
  carrier : t.carrier = s.carrier
  wrapDue : t.timebase.wrapDue = s.timebase.wrapDue

/-- What a pulse comes to, as keying generator and carrier control see it: nothing, a re-alignment, or a second boundary at the
flywheel position 0 (R46, R48, R52 to R55). -/
inductive PulseOutcome (s : State) : State → Prop
  | kept {t : State} (hm : t.timebase.m = s.timebase.m) (h : s.SameKeying t) : PulseOutcome s t
  | realigned {u : State} (hm : u.timebase.m = 0) (h : s.SameKeying u) : PulseOutcome s (realign u)
  | boundary {u : State} (cause : BoundaryCause) (hm : u.timebase.m = 0) (h : s.SameKeying u) :
      PulseOutcome s (secondBoundary cause u)

section

variable {s t u : State}

theorem State.SameKeying.trans (h1 : s.SameKeying t) (h2 : t.SameKeying u) : s.SameKeying u :=
  ⟨h2.keying.trans h1.keying, h2.carrier.trans h1.carrier, h2.wrapDue.trans h1.wrapDue⟩

/-- What comes before a pulse's outcome without a change of keying, carrier and flywheel. -/
theorem PulseOutcome.after (h : PulseOutcome t u) (hm : t.timebase.m = s.timebase.m) (hk : s.SameKeying t) :
    PulseOutcome s u := by
  cases h with
  | kept hm' h => exact .kept (hm'.trans hm) (hk.trans h)
  | realigned hm' h => exact .realigned hm' (hk.trans h)
  | boundary cause hm' h => exact .boundary cause hm' (hk.trans h)

@[simp] theorem setPhase_m (x : Link) (s : State) : (setPhase x s).timebase.m = 0 := rfl

theorem setPhase_sameKeying (x : Link) (s : State) : s.SameKeying (setPhase x s) := ⟨rfl, rfl, rfl⟩

theorem activate_sameKeying (x : Link) (s : State) : s.SameKeying (activate x s) :=
  ⟨by simp, by simp, by rw [activate_timebase]⟩

theorem steer_outcome (x : Link) (e : Int) (s : State) : PulseOutcome s (steer x e s) := by
  unfold steer
  split
  · exact .boundary .advance rfl (setPhase_sameKeying x s)
  · split
    · exact .kept rfl ⟨rfl, rfl, rfl⟩
    · exact .realigned rfl (setPhase_sameKeying x s)

theorem steer_activate_outcome (x : Link) (e : Int) (s : State) : PulseOutcome s (steer x e (activate x s)) :=
  (steer_outcome x e _).after (by rw [activate_timebase]) (activate_sameKeying x s)

theorem adopt_outcome (x : Link) (f : EpochFrame) (e : Int) (s : State) : PulseOutcome s (adopt x f e s) := by
  unfold adopt
  dsimp only
  split
  · exact .boundary _ rfl ((activate_sameKeying x s).trans (setPhase_sameKeying x _))
  · split
    · exact steer_activate_outcome x e s
    · exact .boundary _ rfl ((activate_sameKeying x s).trans ⟨rfl, rfl, rfl⟩)

theorem revertiveTest_outcome (x : Link) (f : EpochFrame) (e : Int) (s : State) :
    PulseOutcome s (revertiveTest x f e s) := by
  unfold revertiveTest
  split
  · split
    · exact steer_activate_outcome x e s
    · exact .kept rfl ⟨rfl, rfl, rfl⟩
  · exact .kept rfl ⟨rfl, rfl, rfl⟩

theorem goodSecond_outcome (x : Link) (f : EpochFrame) (e : Int) (s : State) : PulseOutcome s (goodSecond x f e s) := by
  have counted {mon : Monitor} {t : State} (h : PulseOutcome (s.setMonitor x mon) t) : PulseOutcome s t :=
    h.after rfl ⟨rfl, rfl, rfl⟩
  unfold goodSecond
  dsimp only
  split
  · exact counted (steer_outcome x e _)
  · split
    · split
      · exact counted (adopt_outcome x f e _)
      · exact counted (revertiveTest_outcome x f e _)
    · exact .kept rfl ⟨rfl, rfl, rfl⟩

theorem badSecond_sameKeying (x : Link) (s : State) : s.SameKeying (badSecond x s) :=
  ⟨by simp, by simp, by rw [badSecond_timebase]⟩

theorem badSecond_m (x : Link) (s : State) : (badSecond x s).timebase.m = s.timebase.m := by rw [badSecond_timebase]

theorem judgeSecond_outcome (x : Link) (s : State) : PulseOutcome s (judgeSecond x s) := by
  have consumed (frame : Option EpochFrame) (e : Int) {t : State}
      (h : PulseOutcome (noteStray x e (noteFrame x frame (consumePulse x s))) t) : PulseOutcome s t :=
    h.after (by simp [consumePulse]) ⟨by simp, by simp, by simp [consumePulse]⟩
  unfold judgeSecond
  dsimp only
  split
  · exact consumed _ _ (goodSecond_outcome x _ _ _)
  · exact consumed _ _ (.kept rfl ⟨rfl, rfl, rfl⟩)
  · exact consumed _ _ (.kept (badSecond_m x _) (badSecond_sameKeying x _))

theorem takePulse_outcome (x : Link) (s : State) : PulseOutcome s (takePulse x s) := by
  unfold takePulse
  split
  · exact .kept rfl ⟨rfl, rfl, rfl⟩
  · split
    · exact .kept rfl ⟨rfl, rfl, rfl⟩
    · exact judgeSecond_outcome x s

theorem takeWaiting_outcome (x : Link) (s : State) : PulseOutcome s (takeWaiting x s) := by
  unfold takeWaiting
  split
  · exact (takePulse_outcome x _).after rfl ⟨rfl, rfl, rfl⟩
  · exact .kept rfl ⟨rfl, rfl, rfl⟩

theorem takeL6Pulse_outcome (s : State) : PulseOutcome s (takeL6Pulse s) := by
  unfold takeL6Pulse
  split
  · exact (takePulse_outcome .b _).after rfl ⟨rfl, rfl, rfl⟩
  · exact .kept rfl ⟨rfl, rfl, rfl⟩

theorem takeEdge_outcome (i : PulseInput) (s : State) : PulseOutcome s (takeEdge i s) := by
  cases i with
  | ppsA => exact takePulse_outcome .a s
  | ppsB =>
    simp only [takeEdge]
    split
    · exact .kept rfl ⟨rfl, rfl, rfl⟩
    · exact takePulse_outcome .b s
  | lineL6 => exact takeL6Pulse_outcome s

/-- No pulse makes a wrap due (R42). -/
theorem PulseOutcome.not_due (h : PulseOutcome s t) (hs : s.timebase.wrapDue = false) : t.timebase.wrapDue = false := by
  cases h with
  | kept _ h => rw [h.wrapDue, hs]
  | realigned _ h => rw [(realign_frame _).2.2.1, h.wrapDue, hs]
  | boundary cause _ _ => exact (secondBoundary_spec cause _).2.1 ▸ (Timebase.atBoundary_fields _ _).2.1

theorem PulseOutcome.envelope (h : PulseOutcome s t) (hs : EnvelopeSound s) : EnvelopeSound t := by
  cases h with
  | kept _ h => exact hs.congr h.keying h.carrier
  | realigned _ h => exact (hs.congr h.keying h.carrier).realign
  | boundary cause _ h => exact (hs.congr h.keying h.carrier).secondBoundary cause

/-! ### Flywheel and slot (R40, R150, R152, R156) -/

theorem SlotSound.congr (h : SlotSound s) (hm : t.timebase.m = s.timebase.m)
    (hw : t.timebase.wrapDue = s.timebase.wrapDue) (hj : t.keying.j = s.keying.j) : SlotSound t := by
  simpa only [SlotSound, hm, hw, hj] using h

/-- At the flywheel position 0 the slot begins. -/
theorem SlotSound.of_zero (hm : s.timebase.m = 0) (hj : s.keying.j = 0) : SlotSound s := by simp [SlotSound, hm, hj]

/-- A boundary at the flywheel position 0 begins a slot (R150). -/
theorem SlotSound.secondBoundary (hm : s.timebase.m = 0) (cause : BoundaryCause) : SlotSound (secondBoundary cause s) := by
  obtain ⟨-, htb, -, hj, -⟩ := secondBoundary_spec cause s
  exact .of_zero (by rw [htb, (Timebase.atBoundary_fields _ _).1, hm]) hj

theorem PulseOutcome.slot (h : PulseOutcome s t) (hs : SlotSound s) : SlotSound t := by
  cases h with
  | kept hm h => exact hs.congr hm h.wrapDue (by rw [h.keying])
  | realigned hm h => exact .of_zero (by simpa using hm) rfl
  | boundary cause hm h => exact .secondBoundary hm cause

theorem SlotSound.position_of_due (h : SlotSound s) (hw : s.timebase.wrapDue = true) : s.timebase.m = 0 := by
  simpa [hw] using h.2

theorem SlotSound.takeWrap (h : SlotSound s) : SlotSound (takeWrap s) := by
  unfold Machine.takeWrap
  split
  · next hw => exact .secondBoundary (h.position_of_due hw) .advance
  · exact h

/-- A keying step moves flywheel and slot together once the wrap before it is taken (R40, R152). -/
theorem SlotSound.openStep (h : SlotSound s) (hw : s.timebase.wrapDue = false) (pins : PinIn) :
    SlotSound (openStep pins s) := by
  obtain ⟨hm, hj⟩ := h
  rw [hw, if_neg Bool.false_ne_true] at hj
  have htb := openStep_timebase pins s
  refine ⟨by rw [htb]; exact Nat.mod_lt _ (by decide), ?_⟩
  by_cases h999 : s.timebase.m = 999
  · simp [htb, Timebase.tick, h999]
  · have hkeying : (Machine.openStep pins s).keying.j = s.keying.j + 1 := by
      simp [Machine.openStep, keyingAdvance, carrierStep, formSample_keying, Timebase.tick, h999]
    simp only [htb, Timebase.tick, h999, decide_false, Bool.false_eq_true, if_false, hkeying, hj]
    omega

end

end Sys2Proof.Machine

/-! PROOFS. Every step keeps the envelope's ranges, and flywheel and slot together (O54). -/

namespace Sys2Proof.Machine

/-- The second state keeps both promises of the first: the envelope's ranges, and flywheel and slot together. -/
structure State.KeepsSlots (s t : State) : Prop where
  envelope : EnvelopeSound s → EnvelopeSound t
  slot : SlotSound s → SlotSound t

section

variable {s t u : State}

theorem State.KeepsSlots.refl (s : State) : s.KeepsSlots s := ⟨id, id⟩

theorem State.KeepsSlots.trans (h1 : s.KeepsSlots t) (h2 : t.KeepsSlots u) : s.KeepsSlots u :=
  ⟨h2.envelope ∘ h1.envelope, h2.slot ∘ h1.slot⟩

/-- What changes neither keying generator, carrier control nor timebase. -/
theorem State.KeepsSlots.of_same (hk : t.keying = s.keying) (hc : t.carrier = s.carrier)
    (ht : t.timebase = s.timebase) : s.KeepsSlots t :=
  ⟨fun h => h.congr hk hc, fun h => h.congr (by rw [ht]) (by rw [ht]) (by rw [hk])⟩

/-- What changes neither keying generator nor timebase, and keeps carrier control within its ranges. -/
theorem State.KeepsSlots.of_carrier (hk : t.keying = s.keying) (ht : t.timebase = s.timebase)
    (hc : EnvelopeSound s → t.carrier.InRange) : s.KeepsSlots t :=
  ⟨fun h => h.of_carrier hk (hc h), fun h => h.congr (by rw [ht]) (by rw [ht]) (by rw [hk])⟩

/-- What changes neither keying generator, carrier control, flywheel position nor the wrap that is due. -/
theorem State.KeepsSlots.of_sameKeying (hm : t.timebase.m = s.timebase.m) (h : s.SameKeying t) : s.KeepsSlots t :=
  ⟨fun hs => hs.congr h.keying h.carrier, fun hs => hs.congr hm h.wrapDue (by rw [h.keying])⟩

/-! ### The keying step and its events (R40 to R45) -/

theorem PulseOutcome.keepsSlots (h : PulseOutcome s t) : s.KeepsSlots t := ⟨h.envelope, h.slot⟩

theorem takeFilterChange_keepsSlots (n : LineId) (s : State) : s.KeepsSlots (takeFilterChange n s) :=
  ⟨fun h => h.takeFilterChange n, fun h => h.congr (by simp) (by simp) (by simp)⟩

theorem takeFilterChanges_keepsSlots (s : State) : s.KeepsSlots (takeFilterChanges s) := by
  have folded (lines : List LineId) : ∀ u : State, u.KeepsSlots (lines.foldl (fun s n => takeFilterChange n s) u) := by
    induction lines with
    | nil => exact .refl
    | cons n rest ih => exact fun u => (takeFilterChange_keepsSlots n u).trans (ih _)
  exact folded allLines s

theorem takeWrap_keepsSlots (s : State) : s.KeepsSlots (takeWrap s) := by
  refine ⟨fun h => ?_, fun h => h.takeWrap⟩
  unfold takeWrap
  split
  · exact h.secondBoundary .advance
  · exact h

theorem formWrap_keepsSlots (s : State) : s.KeepsSlots (formWrap s) := by
  have routed : s.KeepsSlots (if routedL6 s then takeFilterChange .l6 s else s) := by
    split
    · exact takeFilterChange_keepsSlots .l6 s
    · exact .refl s
  have wrapped := (routed.trans (takeL6Pulse_outcome _).keepsSlots).trans (takeWrap_keepsSlots _)
  exact ⟨fun h => (wrapped.envelope h).congr rfl rfl, fun h => (wrapped.slot h).congr rfl rfl rfl⟩

theorem takeMissing_sameKeying (x : Link) (s : State) :
    s.SameKeying (takeMissing x s) ∧ (takeMissing x s).timebase.m = s.timebase.m := by
  unfold takeMissing
  split
  · have h := badSecond_sameKeying x
      (s.setMonitor x { s.monitor x with missDue := false, missed := (s.monitor x).missed + 1 })
    exact ⟨⟨h.keying, h.carrier, h.wrapDue⟩, badSecond_m x _⟩
  · exact ⟨⟨rfl, rfl, rfl⟩, rfl⟩

theorem takeMissing_keepsSlots (x : Link) (s : State) : s.KeepsSlots (takeMissing x s) := by
  obtain ⟨h, hm⟩ := takeMissing_sameKeying x s
  exact .of_sameKeying hm h

theorem completeRising_keepsSlots (s : State) : s.KeepsSlots (completeRising s) :=
  ⟨EnvelopeSound.completeRising, fun h => h.congr (by simp) (by simp) (by simp)⟩

theorem completeFalling_keepsSlots (s : State) : s.KeepsSlots (completeFalling s) :=
  ⟨EnvelopeSound.completeFalling, fun h => h.congr (by simp) (by simp) (by simp)⟩

theorem endStrobe_keepsSlots (k : Strobe) (s : State) : s.KeepsSlots (endStrobe k s) :=
  .of_same (by simp) (by simp) (by simp)

/-- The end of a keying step keeps both promises, and takes the wrap that is due (R41; log 5). -/
theorem closeStep_keepsSlots (s : State) : s.KeepsSlots (closeStep s) ∧ (closeStep s).timebase.wrapDue = false := by
  unfold closeStep
  generalize hu : takeFilterChanges s = u
  have filtered : s.KeepsSlots u := hu ▸ takeFilterChanges_keepsSlots s
  have wrapped : u.KeepsSlots (if u.timebase.wrapDue then formWrap u else takeL6Pulse u) ∧
      (if u.timebase.wrapDue then formWrap u else takeL6Pulse u).timebase.wrapDue = false := by
    split
    · exact ⟨formWrap_keepsSlots u, (formWrap_seals u).1⟩
    · next hw => exact ⟨(takeL6Pulse_outcome u).keepsSlots, (takeL6Pulse_outcome u).not_due (Bool.eq_false_of_not_eq_true hw)⟩
  obtain ⟨hkeeps, hdue⟩ := wrapped
  constructor
  · exact ((((((filtered.trans hkeeps).trans (takeMissing_keepsSlots .a _)).trans (takeMissing_keepsSlots .b _)).trans
      (endStrobe_keepsSlots .minute _)).trans (endStrobe_keepsSlots .slot _)).trans (endStrobe_keepsSlots .second _)).trans
      ((completeRising_keepsSlots _).trans (completeFalling_keepsSlots _))
  · simpa [(takeMissing_sameKeying .b _).1.wrapDue, (takeMissing_sameKeying .a _).1.wrapDue] using hdue

theorem keyingStep_keepsSlots (pins : PinIn) (s : State) :
    s.KeepsSlots (takeWaiting .b (takeWaiting .a (openStep pins (closeStep s)))) := by
  obtain ⟨hclosed, hdue⟩ := closeStep_keepsSlots s
  have hopened : (closeStep s).KeepsSlots (openStep pins (closeStep s)) :=
    ⟨fun h => h.openStep pins, fun h => h.openStep hdue pins⟩
  exact ((hclosed.trans hopened).trans (takeWaiting_outcome .a _).keepsSlots).trans (takeWaiting_outcome .b _).keepsSlots

theorem execPulse_keepsSlots (i : PulseEdges) (ht : execPulse i s = .next t) : s.KeepsSlots t := by
  have hwrap (w : Bool) (u : State) : u.KeepsSlots (if w then formWrap u else u) := by
    cases w
    · exact .refl u
    · exact formWrap_keepsSlots u
  obtain ⟨input, also⟩ := i
  obtain rfl := Host.Outcome.next.inj ht
  cases also with
  | some k => exact ((takeEdge_outcome input s).keepsSlots.trans (takeEdge_outcome k _).keepsSlots).trans (hwrap _ _)
  | none => exact (takeEdge_outcome input s).keepsSlots.trans (hwrap _ _)

/-! ### The resets (R38, R145, R163) -/

theorem powerOn_keepsSlots (pins : PinIn) (s : State) :
    s.KeepsSlots ((State.powerOn pins).withPending s.pending |>.withFreeDraws s.freeDraws) :=
  ⟨fun _ => reset_envelope.congr rfl rfl, fun _ => reset_slot.congr rfl rfl rfl⟩

/-- A soft restart leaves the profiles, and its latch, its ramp and its slot begin afresh (R145, R163). -/
theorem softRestartEffect_keepsSlots (src : Link) (wire : WireIn) (s : State) :
    s.KeepsSlots (softRestartEffect src wire s) := by
  refine ⟨fun h => ?_, fun _ => .of_zero rfl rfl⟩
  obtain ⟨profile, -, keyOut, -⟩ := h.keying
  obtain ⟨hlo, hhi, -⟩ := profile 0
  have hramp := h.carrier.rampSetting
  exact (envelopeSound_iff _).2 ⟨⟨profile, ⟨hlo, hhi, by simp [softRestartEffect, nilLatch], nofun⟩, keyOut, by
    simp [softRestartEffect]⟩, hramp, hramp, ⟨hlo, hhi⟩, Nat.zero_le _⟩

/-! ### The events -/

theorem event_keepsSlots {c : Instr} (hc : sourceOf c = none) (ht : exec c s = .next t) : s.KeepsSlots t := by
  cases c <;> simp only [sourceOf, reduceCtorEq] at hc
  case pulse i => exact execPulse_keepsSlots i ht
  all_goals obtain rfl := Host.Outcome.next.inj ht
  case powerOnReset pins => exact powerOn_keepsSlots pins s
  case byteReceived l ch =>
    repeat' split
    all_goals exact .of_same (by simp) (by simp) (by simp)
  case characterFault l ch =>
    repeat' split
    all_goals exact .of_same (by simp) (by simp) (by simp)
  case idle l =>
    split
    all_goals exact .of_same (by simp) (by simp) (by simp)
  case leadExpiry l | tailExpiry l | characterInProgressCompleted l =>
    split
    all_goals exact .of_same (by simp) (by simp) (by simp)
  case replyComplete l =>
    split
    · split
      · exact softRestartEffect_keepsSlots _ _ s
      · exact .of_same (by simp) (by simp) (by simp)
    all_goals exact .refl s
  case keyingStep pins => exact keyingStep_keepsSlots pins s
  case flywheelWrap =>
    split
    · exact formWrap_keepsSlots s
    · exact .refl s
  case missingSecond x => exact takeMissing_keepsSlots x s
  case lineFilterChange n => exact takeFilterChange_keepsSlots n s
  case assemblyCompletion => exact .of_same (by simp) (by simp) (by simp)
  case strobeEnd k => exact endStrobe_keepsSlots k s
  case risingComplete =>
    split
    · exact .refl s
    · exact completeRising_keepsSlots s
  case fallingComplete =>
    split
    · exact .refl s
    · exact completeFalling_keepsSlots s

/-! ### Profiles, ramp length and lines (R147, R164, R173) -/

theorem relations_of_profileFault {p : Profile} (h : profileFault p = none) :
    ∀ d ∈ [p.zero, p.one, p.mark], d.low < p.full ∧ d.rd ≤ d.ldip ∧ d.ldip + d.ru ≤ 950 := by
  have relation {holds : DipShape → Prop} [DecidablePred holds] {shapes : List DipShape} {n : Nat} {rest : Option Nat}
      (hr : (if !shapes.all (fun d => decide (holds d)) then some n else rest) = none) :
      (∀ d ∈ shapes, holds d) ∧ rest = none := by
    split at hr
    · cases hr
    · next hall => exact ⟨by simpa using hall, hr⟩
  obtain ⟨hlow, h⟩ := relation h
  obtain ⟨hrd, h⟩ := relation h
  obtain ⟨hru, -⟩ := relation h
  exact fun d hd => ⟨hlow d hd, hrd d hd, hru d hd⟩

/-- A clamped profile whose relations hold is sound (R146, R147). -/
theorem clampProfile_sound {p : Profile} (h : profileFault (clampProfile p) = none) : (clampProfile p).Sound := by
  have hfull := clamp_bounds (lo := 100) (hi := 1000) p.full (by decide)
  have clamped (d : DipShape) (hd : clampShape d ∈ [clampShape p.zero, clampShape p.one, clampShape p.mark]) :
      (clampShape d).Sound (clampProfile p).full := by
    obtain ⟨hlow, hrd, hru⟩ := relations_of_profileFault h _ hd
    have hldip := clamp_bounds (lo := 10) (hi := 900) d.ldip (by decide)
    exact ⟨hldip.1, hldip.2, (clamp_bounds d.rd (by decide)).2, (clamp_bounds d.ru (by decide)).2, hlow, hrd, hru⟩
  exact ⟨hfull.1, hfull.2, clamped _ (by simp), clamped _ (by simp), clamped _ (by simp)⟩

theorem writeProfileAnswer_keepsSlots (rq : Request) (s : State) : s.KeepsSlots (writeProfileAnswer rq s).state := by
  unfold writeProfileAnswer
  split
  · exact .refl s
  · dsimp only
    split
    · exact .refl s
    · next hfault =>
      refine ⟨fun h => ?_, fun h => h⟩
      obtain ⟨profile, latch, keyOut, stepAmp⟩ := h.keying
      refine h.of_keying ⟨fun i => ?_, latch, keyOut, stepAmp⟩ rfl
      by_cases hi : i = profileOf (rq.num 0)
      · subst hi
        simpa using clampProfile_sound hfault
      · simpa [PerProfile.get_set_ne _ _ hi] using profile i

theorem setRampAnswer_keepsSlots (rq : Request) (s : State) : s.KeepsSlots (setRampAnswer rq s).state :=
  .of_carrier rfl rfl fun h => ⟨clamp_bounds _ (by decide), h.carrier.rc, h.carrier.fr, h.carrier.position⟩

theorem applyLineSettings_keepsSlots (n : LineId) (w : LineSettings) (pins : PinIn) (s : State) :
    s.KeepsSlots (applyLineSettings n w pins s) := by
  refine ⟨fun h => ?_, fun h => h.congr (by simp) (by simp) (by simp)⟩
  unfold applyLineSettings
  refine EnvelopeSound.noteHalt ?_ s
  split
  · exact h.congr (by simp) (by simp)
  · exact h

theorem writeLinesAnswer_keepsSlots (pins : PinIn) (rq : Request) (s : State) :
    s.KeepsSlots (writeLinesAnswer pins rq s).state := by
  unfold writeLinesAnswer
  split
  · split
    · exact .refl s
    · exact applyLineSettings_keepsSlots _ _ _ _
  · split
    · exact .of_same rfl rfl rfl
    · exact .refl s

/-! ### CONTROL (R34, R166 to R169) -/

theorem carrierOn_keepsSlots (h : carrierOn s = .ok t) : s.KeepsSlots t := by
  unfold carrierOn at h
  split at h
  · cases h
  · split at h <;> cases h
    · exact .of_carrier rfl rfl fun h => h.ramp rfl rfl rfl (Nat.zero_le _)
    · exact .of_carrier rfl rfl fun h => h.carrier.move rfl rfl rfl h.carrier.position
    · exact .refl _
    · exact .refl _

theorem carrierOff_keepsSlots (s : State) : s.KeepsSlots (carrierOff s) := by
  unfold carrierOff
  split
  · split
    · exact .of_carrier rfl rfl fun h => h.carrier.move rfl rfl rfl h.carrier.position
    · exact .of_carrier rfl rfl fun h => h.ramp rfl rfl rfl le_rfl
  · exact .of_carrier rfl rfl fun h => h.carrier.move rfl rfl rfl h.carrier.position
  · exact .refl s
  · exact .refl s

theorem carrierPart_keepsSlots {b : Byte} (h : carrierPart b s = .ok t) : s.KeepsSlots t := by
  unfold carrierPart at h
  split at h
  · exact carrierOn_keepsSlots h
  · cases h
    exact carrierOff_keepsSlots s
  · cases h

/-- The code part moves no ramp (R168, R169). -/
theorem codePart_keepsSlots {b : Byte} (h : codePart b s = .ok t) : s.KeepsSlots t := by
  have coded {code : CodeState} : s.KeepsSlots (s.withCarrier { s.carrier with code := code }) :=
    .of_carrier rfl rfl fun h => h.carrier.move rfl rfl rfl h.carrier.position
  have off : s.KeepsSlots (codeOff s) := by
    unfold codeOff
    split
    · exact coded
    · exact coded
    · exact .refl s
    · exact .refl s
  unfold codePart codeOn at h
  repeat' split at h
  all_goals
    cases h
    try exact coded
    try exact .refl _
  exact off

theorem keepsSlots_of_kept {kept : Bool} {part : Except Reason State} (hpart : part = .ok t → s.KeepsSlots t)
    (h : (if kept then part else .ok s) = .ok t) : s.KeepsSlots t := by
  cases kept
  · cases h
    exact .refl s
  · exact hpart h

theorem controlAnswer_keepsSlots (rq : Request) (s : State) : s.KeepsSlots (controlAnswer rq s).state := by
  by_cases hlen : rq.args.length = 6
  · cases h1 : (if keptPart rq s 0 .carrier then carrierPart (rq.arg 1) s else .ok s) with
    | error r => exact controlAnswer_carrier_refused hlen h1 ▸ .refl s
    | ok s1 =>
      cases h2 : (if keptPart rq s 1 .code then codePart (rq.arg 2) s1 else .ok s1) with
      | error r => exact controlAnswer_code_refused hlen h1 h2 ▸ .refl s
      | ok s2 =>
        rw [controlAnswer_applied hlen h1 h2]
        exact ((keepsSlots_of_kept carrierPart_keepsSlots h1).trans (keepsSlots_of_kept codePart_keepsSlots h2)).trans
          (.of_same rfl rfl rfl)
  · rw [controlAnswer, if_pos hlen]
    exact .refl s

/-! ### All requests (R26 to R28) -/

theorem blockAnswers_keepsSlots {pins : PinIn} {own : Request → State → Answer} (h : own ∈ blockAnswers pins)
    (rq : Request) (s : State) : s.KeepsSlots (own rq s).state := by
  revert own
  simp only [blockAnswers, List.forall_mem_cons, List.not_mem_nil, IsEmpty.forall_iff, implies_true, and_true,
    writeProfileAnswer_keepsSlots, setRampAnswer_keepsSlots, writeLinesAnswer_keepsSlots]
  and_intros
  all_goals
    simp only [setPermissionsAnswer, softRestartAnswer, setBalanceAnswer, setCivilAnswer, setWindowsAnswer, addLeapAnswer,
      deleteLeapAnswer, addTransitionAnswer, deleteTransitionAnswer, writeMapOwn, copyMapAnswer, commitMapAnswer,
      cancelCommitAnswer, writeTestOwn, pushOverrideAnswer, popOverrideAnswer, removeOverrideAnswer, setAssemblySlotAnswer]
    repeat' split
    all_goals exact .of_same rfl rfl rfl

/-- A read of the status clears counters, flags and the halt latch at most (R192). -/
theorem readStatusAnswer_keepsSlots (rq : Request) (s : State) : s.KeepsSlots (readStatusAnswer rq s).state := by
  have hcapture : (captureStatus rq s).state = if rq.wantsReply then s.withFreeDraws (s.freeDraws + 1) else s :=
    readAnswer_state ..
  unfold readStatusAnswer
  split
  · exact .refl s
  · next clear _ =>
    split
    · exact .refl s
    · dsimp only
      rw [hcapture]
      have cleared (u : State) : u.KeepsSlots (clearStatus u) :=
        .of_carrier rfl rfl fun h => h.carrier.move rfl rfl rfl h.carrier.position
      have drawn : s.KeepsSlots (if rq.wantsReply then s.withFreeDraws (s.freeDraws + 1) else s) := by
        split <;> exact .of_same rfl rfl rfl
      split
      · exact drawn.trans (cleared _)
      · exact drawn

theorem linkAnswers_keepsSlots {wire : WireIn} {own : Request → State → Answer} (h : own ∈ linkAnswers wire)
    (rq : Request) (s : State) : s.KeepsSlots (own rq s).state := by
  revert own
  simp only [linkAnswers, List.forall_mem_cons, List.not_mem_nil, IsEmpty.forall_iff, implies_true, and_true,
    readStatusAnswer_keepsSlots]
  and_intros
  all_goals
    simp only [setLinkAnswer, setReturnLimitAnswer, disableLinkAnswer, enableLinkAnswer, setTimebaseAnswer, disableEffect,
      enableEffect]
    repeat' split
    all_goals exact .of_sameKeying (by simp) ⟨by simp, by simp, by simp⟩

theorem ownAnswers_keepsSlots {pins : PinIn} {wire : WireIn} {own : Request → State → Answer}
    (h : own ∈ ownAnswers pins wire) (rq : Request) (s : State) : s.KeepsSlots (own rq s).state := by
  simp only [ownAnswers, List.mem_append] at h
  rcases h with hlink | hblock | hread
  · exact linkAnswers_keepsSlots hlink rq s
  · exact blockAnswers_keepsSlots hblock rq s
  · exact (readAnswers_state hread rq s).symm ▸ .refl s

theorem row_keepsSlots {src : Link} {pins : PinIn} {wire : WireIn} {row : RequestRow}
    (hrow : row ∈ requestRows src pins wire) (rq : Request) (s : State) : s.KeepsSlots (row.handler rq s).state := by
  have hs := State.KeepsSlots.refl s
  have own {own : Request → State → Answer} (h : own ∈ ownAnswers pins wire) := ownAnswers_keepsSlots h rq s
  cases row_firstChecks hrow with
  | checked hown _ _ hhandler => exact hhandler ▸ checked_state _ _ hs (own hown)
  | lengthChecked hown _ _ hhandler => exact hhandler ▸ lengthChecked_state _ hs (own hown)
  | writeMap _ hhandler => exact hhandler ▸ writeMapAnswer_state hs (own (writeMapOwn_mem pins wire))
  | writeTest _ hhandler => exact hhandler ▸ writeTestAnswer_state hs (own (writeTestOwn_mem pins wire))

theorem request_keepsSlots {c : Instr} {src : Link} (hc : sourceOf c = some src) (ht : exec c s = .next t) :
    s.KeepsSlots t := by
  have popped : s.KeepsSlots (popTaken src s) := .of_same rfl rfl rfl
  have finished {rq : Request} {an : Answer} (h : (popTaken src s).KeepsSlots an.state) :
      s.KeepsSlots (finishTake rq an) :=
    (popped.trans h).trans (.of_same (by simp) (by simp) (by simp))
  rcases sourceOf_cases hc with ⟨pins, wire, row, hrow, rfl⟩ | hcontrol | rfl
  · rw [exec_row hrow] at ht
    obtain rfl := Host.Outcome.next.inj ht
    rcases takeNamed_cases row.name row.handler src s with he | ⟨rq, -, he⟩ <;> rw [he]
    · exact .refl s
    · exact finished (row_keepsSlots hrow rq _)
  · obtain ⟨row, hrow⟩ := exec_control hcontrol
    rw [hrow] at ht
    obtain rfl := Host.Outcome.next.inj ht
    rcases takeControl_cases row src s with he | ⟨rq, -, he⟩ <;> rw [he]
    · exact .refl s
    · exact finished (controlAnswer_keepsSlots rq _)
  · obtain rfl := Host.Outcome.next.inj ht
    rcases takeUnknown_cases src s with he | he | ⟨rq, -, he⟩ <;> rw [he]
    · exact .refl s
    · exact popped
    · exact finished (.refl _)

end

/-- Settles O54: every command keeps both promises, and taking it from the queue does not touch them. -/
theorem stepKeepsEnvelopeAndSlot : Obligations.StepKeepsEnvelopeAndSlot := by
  intro s t ht
  suffices hk : s.KeepsSlots t from ⟨hk.envelope, hk.slot⟩
  unfold step at ht
  split at ht
  · obtain rfl := Host.Outcome.next.inj ht
    exact .refl s
  · next c rest _ =>
    have hrest : s.KeepsSlots (s.withPending rest) := .of_same rfl rfl rfl
    cases hc : sourceOf c with
    | none => exact hrest.trans (event_keepsSlots hc ht)
    | some src => exact hrest.trans (request_keepsSlots hc ht)

end Sys2Proof.Machine

/-! PROOFS. The requests on timebase, balance, civil state and windows taken (O22), and the judgement of a second (O42). -/

namespace Sys2Proof.Machine

/-! ### The requests on time (R59, R60, R62, R87, R89) -/

section

variable {rq : Request} {s : State}

/-- Settings are clamped exactly when window, count or limit lies outside its range (R59). -/
theorem TimebaseSettings.clamped_bne (w : TimebaseSettings) :
    (w.clamped != w) = decide (w.window < 1 ∨ 10 < w.window ∨ w.qualify < 2 ∨ 60 < w.qualify ∨ w.limit < 1 ∨
      10080 < w.limit) := by
  have hwindow := clamp_ne_iff (lo := 1) (hi := 10) w.window (by decide)
  have hqualify := clamp_ne_iff (lo := 2) (hi := 60) w.qualify (by decide)
  have hlimit := clamp_ne_iff (lo := 1) (hi := 10080) w.limit (by decide)
  have hne : w.clamped ≠ w ↔
      clamp 1 10 w.window ≠ w.window ∨ clamp 2 60 w.qualify ≠ w.qualify ∨ clamp 1 10080 w.limit ≠ w.limit := by
    obtain ⟨window, qualify, preferred, revertive, accept, warn, limit⟩ := w
    simp only [clamped, ne_eq, TimebaseSettings.mk.injEq, true_and, not_and_or]
  rw [Bool.eq_iff_iff, bne_iff_ne, decide_eq_true_iff, hne, hwindow, hqualify, hlimit, or_assoc, or_assoc]

theorem setTimebaseAnswer_of_codes {preferred : Link} {revertive accept : Bool} (hp : linkOf (rq.arg 2) = some preferred)
    (hr : boolOf (rq.arg 3) = some revertive) (ha : boolOf (rq.arg 4) = some accept) :
    setTimebaseAnswer rq s = carriedOut
      (decide (rq.num 0 < 1 ∨ 10 < rq.num 0 ∨ rq.num 1 < 2 ∨ 60 < rq.num 1 ∨ rq.num2 7 < 1 ∨ 10080 < rq.num2 7))
      (noteLimited s (s.withTimebase
        { s.timebase with
          settings :=
            { window := max 1 (min 10 (rq.num 0)), qualify := max 2 (min 60 (rq.num 1)), preferred := preferred,
              revertive := revertive, acceptDegraded := accept, warn := rq.num2 5,
              limit := max 1 (min 10080 (rq.num2 7)) } })) := by
  have hgiven : rq.timebaseSettings = some
      { window := rq.num 0, qualify := rq.num 1, preferred := preferred, revertive := revertive, acceptDegraded := accept,
        warn := rq.num2 5, limit := rq.num2 7 } := by
    rw [Request.timebaseSettings, hp, hr, ha]
  rw [setTimebaseAnswer, hgiven]
  dsimp only
  rw [TimebaseSettings.clamped_bne]
  rfl

/-- A signed byte is at most 127. -/
theorem Request.signed_le (rq : Request) (i : Nat) : rq.signed i ≤ 127 :=
  Int.lt_add_one_iff.1 (BitVec.toInt_lt (x := rq.arg i))

theorem setBalanceAnswer_of_sums (hc : s.carrier.code = .off) (hlow : -32 ≤ rq.signed 0)
    (hsums : sumsInRange (rq.signed 0) s.rules.leaps = true) :
    setBalanceAnswer rq s =
      carriedOut false (s.withTimeScale { s.timeScale with pendingBalance := some (rq.signed 0) }) := by
  have hin : balanceInRange (rq.signed 0) = true := by simp [balanceInRange, hlow, rq.signed_le 0]
  rw [setBalanceAnswer, hc, if_neg (not_not.2 rfl), hin, hsums]
  rfl

theorem setCivilAnswer_of_codes {summer : Bool} (hc : s.carrier.code = .off) (hlow : -48 ≤ rq.signed 0)
    (hhigh : rq.signed 0 ≤ 56) (hs : boolOf (rq.arg 1) = some summer) :
    setCivilAnswer rq s =
      carriedOut false (s.withRules { s.rules with offset := rq.signed 0, summer := summer }) := by
  have hin : offsetInRange (rq.signed 0) = true := by simp [offsetInRange, hlow, hhigh]
  rw [setCivilAnswer, hc, if_neg (not_not.2 rfl), hin, hs]
  rfl

theorem setWindowsAnswer_eq (rq : Request) (s : State) :
    setWindowsAnswer rq s = carriedOut
      (decide (rq.num2 0 < 1 ∨ 1440 < rq.num2 0 ∨ rq.num2 2 < 1 ∨ 1440 < rq.num2 2))
      (s.withRules
        { s.rules with
          leapWindow := max 1 (min 1440 (rq.num2 0)), changeWindow := max 1 (min 1440 (rq.num2 2)) }) := by
  have hclamped : (clamp 1 1440 (rq.num2 0) != rq.num2 0 || clamp 1 1440 (rq.num2 2) != rq.num2 2) =
      decide (rq.num2 0 < 1 ∨ 1440 < rq.num2 0 ∨ rq.num2 2 < 1 ∨ 1440 < rq.num2 2) := by
    rw [clamp_bne _ (by decide), clamp_bne _ (by decide)]
    simp [Bool.or_assoc]
  rw [setWindowsAnswer]
  dsimp only
  rw [hclamped]
  rfl

end

/-- Settles O22, each request from what its answer is. -/
theorem timeRequestsTakeEffect : Obligations.TimeRequestsTakeEffect := by
  intro src s rq s1
  refine ⟨fun preferred revertive accept htakes hlen hperm hp hr ha => ?_, fun htakes hlen hperm hc hlow hsums => ?_,
    fun summer htakes hlen hperm hc hlow hhigh hs => ?_, fun htakes hlen hperm => ?_⟩
  · exact congrArg _ ((take_checked htakes setTimebaseAnswer hlen hperm).trans
      (congrArg _ (setTimebaseAnswer_of_codes hp hr ha)))
  · exact congrArg _ ((take_checked htakes setBalanceAnswer hlen hperm).trans
      (congrArg _ (setBalanceAnswer_of_sums (s := s1) hc hlow hsums)))
  · exact congrArg _ ((take_checked htakes setCivilAnswer hlen hperm).trans
      (congrArg _ (setCivilAnswer_of_codes (s := s1) hc hlow hhigh hs)))
  · exact congrArg _ ((take_checked htakes setWindowsAnswer hlen hperm).trans
      (congrArg _ (setWindowsAnswer_eq rq s1)))

/-! ### The judgement of a second (R44) -/

section

variable {set : TimebaseSettings} {balance : Int} {mon : Monitor} {frame : Option EpochFrame} {e : Int}

/-- Within a window of less than half a second, offsets are near each other modulo 1000 when some whole number of seconds
brings them together (R44 condition 5). -/
theorem offsetsWithin_iff {w : Nat} (hw : w < 500) (e last : Int) :
    offsetsWithin w e last = true ↔ ∃ z : Int, (e - last - 1000 * z).natAbs ≤ w := by
  rw [offsetsWithin, decide_eq_true_iff]
  constructor
  · exact fun h => ⟨(e - last + 500) / 1000, by omega⟩
  · rintro ⟨z, hz⟩
    have : (e - last + 500) / 1000 = z := by omega
    omega

theorem inSpan_iff (u : Int) : inSpan u = true ↔ 0 ≤ u ∧ u ≤ 3155759999 := by
  rw [inSpan, Bool.and_eq_true, decide_eq_true_iff, decide_eq_true_iff, Config.spanLast]

theorem frameUsable_iff (f : EpochFrame) :
    frameUsable set balance f = true ↔ (f.quality = .locked ∨ (f.quality = .degraded ∧ set.acceptDegraded = true)) ∧
      0 ≤ (f.count : Int) - balance ∧ (f.count : Int) - balance ≤ 3155759999 := by
  simp [frameUsable, inSpan_iff]

theorem notStray_iff : notStray set mon e = true ↔ (mon.state = .active → e.natAbs ≤ set.window) := by
  simp [notStray, imp_iff_not_or]

/-- A pulse without a usable frame is a bad second; one with it is starting without last S, and else good when count, offset and
window agree (R44). -/
theorem judgePulse_eq :
    judgePulse set balance mon frame e =
      match frame, mon.last with
      | none, _ => .bad
      | some f, none => if frameUsable set balance f then .starting else .bad
      | some f, some (lastS, lastE) =>
        if frameUsable set balance f && (f.count == lastS + 1 && offsetsWithin set.window e lastE && notStray set mon e)
        then .good else .bad := by
  unfold judgePulse
  cases frame with
  | none => rfl
  | some f =>
    cases hu : frameUsable set balance f <;> cases mon.last <;> simp [hu]

end

/-- Settles O42, from what the judgement is by the frame and by last S. -/
theorem secondsAreJudged : Obligations.SecondsAreJudged := by
  intro set balance mon frame e hset usable
  have hw : set.window < 500 := by
    obtain ⟨-, hw, -⟩ := hset
    omega
  rw [judgePulse_eq]
  cases frame with
  | none => simp [usable]
  | some f =>
    have husable : frameUsable set balance f = true ↔ usable f := by simp [usable, frameUsable_iff]
    have hframe {g : EpochFrame} (hg : usable g) : g = f := (Option.some.inj hg.1).symm
    cases mon.last with
    | none =>
      constructor
      · refine iff_of_false ?_ (by simp)
        dsimp only
        split <;> simp
      · have hstarting : (∃ g, usable g) ↔ usable f := ⟨fun ⟨g, hg⟩ => hframe hg ▸ hg, fun hf => ⟨f, hf⟩⟩
        simp [hstarting, ← husable]
    | some last =>
      obtain ⟨lastS, lastE⟩ := last
      constructor
      · have hgood : (frameUsable set balance f &&
            (f.count == lastS + 1 && offsetsWithin set.window e lastE && notStray set mon e)) = true ↔
            usable f ∧ (f.count = lastS + 1 ∧ ∃ z : Int, (e - lastE - 1000 * z).natAbs ≤ set.window) ∧
              (mon.state = .active → e.natAbs ≤ set.window) := by
          simp only [Bool.and_eq_true, husable, beq_iff_eq, offsetsWithin_iff hw, notStray_iff]
        constructor
        · intro hj
          have hall := hgood.1 (by by_contra hn; simp [hn] at hj)
          obtain ⟨hf, ⟨hcount, hnear⟩, hstray⟩ := hall
          exact ⟨f, lastS, lastE, hf, rfl, hcount, hnear, hstray⟩
        · rintro ⟨g, lastS', lastE', hg, hlast, hcount, hnear, hstray⟩
          obtain rfl := hframe hg
          cases hlast
          exact if_pos (hgood.2 ⟨hg, ⟨hcount, hnear⟩, hstray⟩)
      · refine iff_of_false ?_ (by simp)
        dsimp only
        split <;> simp

end Sys2Proof.Machine

/-! PROOFS. A keying step with nothing left over from the step before (O32). -/

namespace Sys2Proof.Machine

section

variable {s : State}

/-! ### The step before has ended (log 5) -/

theorem takeFilterChanges_of_not_due (h : ∀ n ∈ allLines, (s.line n).filterDue = false) : takeFilterChanges s = s := by
  have folded (lines : List LineId) (hl : ∀ n ∈ lines, (s.line n).filterDue = false) :
      lines.foldl (fun s n => takeFilterChange n s) s = s := by
    induction lines with
    | nil => rfl
    | cons n rest ih =>
      rw [List.foldl_cons, takeFilterChange_of_not_due (hl n (by simp))]
      exact ih fun k hk => hl k (by simp [hk])
  exact folded allLines h

theorem takeMissing_of_not_due {x : Link} (h : (s.monitor x).missDue = false) : takeMissing x s = s := by
  simp [takeMissing, h]

theorem endStrobe_of_running {k : Strobe} (h : s.lineUnit.strobes.get k ≠ some 0) : endStrobe k s = s := if_neg h

theorem completeRising_of_not_end (h : s.carrier.rampEnd = false) : completeRising s = s := by
  simp [completeRising, h]

theorem completeFalling_of_not_end (h : s.carrier.rampEnd = false) : completeFalling s = s := by
  simp [completeFalling, h]

/-- With nothing left to take the end of a step changes nothing, whether a pulse waits for the next one or not. -/
theorem closeStep_of_none_due (hlines : ∀ n ∈ allLines, (s.line n).filterDue = false) (hl6 : s.lineUnit.l6Pulse = false)
    (hwrap : s.timebase.wrapDue = false) (hmissA : (s.monitor .a).missDue = false)
    (hmissB : (s.monitor .b).missDue = false) (hminute : s.lineUnit.strobes.minute ≠ some 0)
    (hslot : s.lineUnit.strobes.slot ≠ some 0) (hsecond : s.lineUnit.strobes.second ≠ some 0)
    (hend : s.carrier.rampEnd = false) : closeStep s = s := by
  rw [closeStep, takeFilterChanges_of_not_due hlines]
  simp only [hwrap, Bool.false_eq_true, if_false, takeL6Pulse_of_none hl6, takeMissing_of_not_due hmissA,
    takeMissing_of_not_due hmissB, endStrobe_of_running (k := .minute) hminute, endStrobe_of_running (k := .slot) hslot,
    endStrobe_of_running (k := .second) hsecond, completeRising_of_not_end hend, completeFalling_of_not_end hend]

theorem closeStep_of_quiet (h : Quiet s) : closeStep s = s := by
  obtain ⟨hlines, hl6, hwrap, hmissA, hmissB, -, -, hminute, hslot, hsecond, hend⟩ := h
  exact closeStep_of_none_due hlines hl6 hwrap hmissA hmissB hminute hslot hsecond hend

/-! ### The next step begins (R40, R45, R151, R155, R165, R178, R181) -/

/-- A pulse timer counts on, and marks its expiry (R45; log 29). -/
theorem Monitor.tick_eq {mon : Monitor} (h : mon.missDue = false) (w : Nat) :
    mon.tick w =
      { mon with
        timer := mon.timer.map (· + 1)
        missDue := mon.timer.any (fun n => decide (1000 * (mon.missed + 1) + w ≤ n + 1)) } := by
  obtain ⟨state, good, last, timer, missed, missDue, waiting⟩ := mon
  cases timer with
  | none => cases h; rfl
  | some n => rfl

theorem openStep_monitor (pins : PinIn) (s : State) (x : Link) :
    (openStep pins s).monitor x = (s.monitor x).tick s.timebase.settings.window := by
  rw [State.monitor, openStep_timebase]
  cases x <;> rfl

theorem openStep_waiting (pins : PinIn) (s : State) (x : Link) :
    ((openStep pins s).monitor x).waiting = (s.monitor x).waiting := by
  rw [openStep_monitor, Monitor.tick]
  split <;> rfl

theorem openStep_carrier (pins : PinIn) (s : State) : (openStep pins s).carrier = s.carrier.tick := by
  simp [openStep, carrierStep]

theorem openStep_lineUnit (pins : PinIn) (s : State) :
    (openStep pins s).lineUnit = (lineStep pins (s.withTimebase s.timebase.tick)).lineUnit := by
  simp [openStep]

theorem openStep_line (pins : PinIn) (s : State) (n : LineId) :
    (openStep pins s).line n =
      if isOutput s n then s.line n else (s.line n).sample (pinFound pins n (s.line n).pull) := by
  rw [State.line, openStep_lineUnit]
  exact lineStep_line pins _ n

/-- At a wrap the sample is left to the boundary; at any other step the next sample of the slot goes out (R150, R151). -/
theorem openStep_keying (pins : PinIn) (s : State) :
    (openStep pins s).keying =
      if s.timebase.m = 999 then { s.keying with stepAmp := s.carrier.tick.amplitude }
      else
        { s.keying with
          j := s.keying.j + 1
          stepAmp := s.carrier.tick.amplitude
          keyOut :=
            { amplitude := s.carrier.tick.amplitude.getD (sampleAmplitude s.keying.latch (s.keying.j + 1))
              slotStart := false
              minuteStart := false
              dip := s.carrier.tick.amplitude.isNone && inDip s.keying.latch (s.keying.j + 1) } } := by
  unfold openStep keyingAdvance
  by_cases h : s.timebase.m = 999
  · simp [h, carrierStep, Timebase.tick]
  · simp [h, carrierStep, Timebase.tick, formSample_keying]

/-- A keying step moves k by one within 0 and Rc (R165; log 20). -/
theorem Carrier.tick_moves (c : Carrier) :
    c.tick =
      { c with
        k := match c.state with
          | .off => 0
          | .rising => min c.rc (c.k + 1)
          | .steady => c.k
          | .falling => c.k - 1
        rampEnd := c.tick.rampEnd
        justSteady := false } := by
  obtain ⟨state, _⟩ := c
  cases state <;> rfl

/-- A ramp ends at the step that brings k to Rc, or down to 0 (R165). -/
theorem Carrier.tick_rampEnd {c : Carrier} (h : c.rampEnd = false) :
    c.tick.rampEnd = true ↔ (c.state = .rising ∧ c.rc ≤ c.k + 1) ∨ (c.state = .falling ∧ c.k ≤ 1) := by
  unfold Carrier.tick
  cases c.state with
  | off => simp [h]
  | rising => simp
  | steady => simp [h]
  | falling => simp; omega

/-- The amplitude for the step is that of the moved ramp (R155, R165). -/
theorem Carrier.tick_amplitude (c : Carrier) :
    c.tick.amplitude = match c.state with
      | .off => some 0
      | .rising => some (c.fr * c.tick.k / c.rc)
      | .falling => some (c.fr * c.tick.k / c.rc)
      | .steady => none := by
  unfold Carrier.amplitude rampAmplitude Carrier.tick
  cases c.state <;> rfl

/-- The filter of an input that has no change due (R178). -/
theorem LineState.sample_eq {ln : LineState} (h : ln.filterDue = false) (raw : Bool) :
    ln.sample raw =
      if raw = ln.filtered then { ln with raw := raw, run := 0 }
      else if ln.run + 1 ≤ ln.filter then { ln with raw := raw, run := ln.run + 1 }
      else { ln with raw := raw, filterDue := true } := by
  unfold LineState.sample
  split
  · rw [← h]
  · by_cases hr : ln.run + 1 ≤ ln.filter
    · rw [if_neg (Nat.not_lt.2 hr), if_pos hr]
    · rw [if_pos (Nat.lt_of_not_le hr), if_neg hr]

theorem mem_allLines (n : LineId) : n ∈ allLines := by cases n <;> decide

/-- With no pulse waiting a keying step after a quiet one is the opening of the next step. -/
theorem execKeyingStep_of_quiet (h : Quiet s) (pins : PinIn) : execKeyingStep pins s = .next (openStep pins s) := by
  have hclose := closeStep_of_quiet h
  obtain ⟨-, -, -, -, -, hwaitA, hwaitB, -⟩ := h
  rw [execKeyingStep, hclose, takeWaiting_of_none (x := .a) ((openStep_waiting pins s .a).trans hwaitA),
    takeWaiting_of_none (x := .b) ((openStep_waiting pins s .b).trans hwaitB)]

end

/-- Settles O32, block by block. -/
theorem keyingStepAdvances : Obligations.KeyingStepAdvances := by
  intro pins s hq
  have hnext := execKeyingStep_of_quiet hq pins
  obtain ⟨hlines, -, -, hmissA, hmissB, -, -, -, -, -, hend⟩ := hq
  have htb := openStep_timebase pins s
  have hc := openStep_carrier pins s
  have hk := openStep_keying pins s
  have hamp := Carrier.tick_amplitude s.carrier
  refine ⟨openStep pins s, hnext, ?m, ?wrap, fun x => ?monitor, ?timebase, ?carrier, ?rampEnd, ?stepAmp, fun hm => ?wrapKeying,
    fun hm => ?keying, fun n => ⟨fun ho => ?output, fun hi => ?input⟩, ?strobes, ?frame⟩
  case m => rw [htb]; rfl
  case wrap => simp [htb, Timebase.tick]
  case monitor =>
    rw [openStep_monitor, Monitor.tick_eq]
    cases x
    · exact hmissA
    · exact hmissB
  case timebase => rw [htb]; rfl
  case carrier =>
    rw [hc]
    exact Carrier.tick_moves _
  case rampEnd => rw [hc, Carrier.tick_rampEnd hend]
  case stepAmp =>
    have hstep : (openStep pins s).keying.stepAmp = s.carrier.tick.amplitude := by
      rw [hk]
      split <;> rfl
    rw [hc]
    exact hstep.trans hamp
  case wrapKeying => rw [hk, if_pos hm]
  case keying =>
    rw [hk, if_neg hm, hc, hamp]
    cases s.carrier.state <;> rfl
  case output => rw [openStep_line, ho, if_pos rfl]
  case input =>
    dsimp only
    rw [openStep_line, hi, LineState.sample_eq (hlines n (mem_allLines n))]
    rfl
  case strobes => rw [openStep_lineUnit]; rfl
  case frame =>
    refine State.eq_of_fields ?_ ?_ rfl ?_ ?_ ?_ ?_ rfl rfl ?_ ?_ ?_ ?_
    all_goals simp [openStep_lineUnit, lineStep]

end Sys2Proof.Machine

/-! PROOFS. FLYWHEEL_WRAP is a second boundary (O33): the words at a boundary, and the boundary block by block. -/

namespace Sys2Proof.Machine

/-! ### The end of a word (R128, R129, R189) -/

section

variable {s : State} {cw : CurrentWord}

theorem CodeState.keys_eq (code : CodeState) : code.keys = (code == .running || code == .ending) := by cases code <;> rfl

/-- The status unit after a word that ended completed: CODED, unbroken and keyed it counts (R189). -/
def StatusUnit.afterCompleted (u : StatusUnit) (w : CodeWord) (keyed : Bool) : StatusUnit :=
  { u with
    minutesCoded := if w.kind = .coded ∧ w.broken = false ∧ keyed = true then min 65535 (u.minutesCoded + 1)
      else u.minutesCoded }

/-- The status unit after a word that was abandoned: keyed, it is broken (R128, R161). -/
def StatusUnit.afterAbandoned (u : StatusUnit) (w : CodeWord) (keyed : Bool) : StatusUnit :=
  { u with
    brokenMinutes := if w.broken = false ∧ keyed = true then min 65535 (u.brokenMinutes + 1) else u.brokenMinutes }

theorem endCurrent_completed (h : s.assembler.current = some cw) :
    (endCurrent true s).status = s.status.afterCompleted cw.word s.carrier.code.keys := by
  have hcounts : countsAsCoded cw.word s.carrier.code = true ↔
      cw.word.kind = .coded ∧ cw.word.broken = false ∧ s.carrier.code.keys = true := by
    simp [countsAsCoded, and_assoc]
  simp only [endCurrent, h, if_true, State.withStatus_status, StatusUnit.afterCompleted, hcounts]
  split
  · rfl
  · rfl

theorem endCurrent_abandoned (h : s.assembler.current = some cw) :
    (endCurrent false s).status = s.status.afterAbandoned cw.word s.carrier.code.keys := by
  simp only [endCurrent, h, Bool.false_eq_true, if_false, State.withAssembler_status, StatusUnit.afterAbandoned]
  cases s.carrier.code.keys with
  | false => simp
  | true =>
    cases hb : cw.word.broken <;> simp [markBroken_status, h, hb, countUp_eq]

theorem endCurrent_of_none (h : s.assembler.current = none) (completed : Bool) : endCurrent completed s = s := by
  simp [endCurrent, h]

theorem lastSlotBegun_iff (h : s.assembler.current = some cw) :
    lastSlotBegun s = true ↔ cw.lastSlot + 1 = cw.word.length := by simp [lastSlotBegun, h]

/-- A word that is replaced ends completed when its last slot had begun, and abandoned else (R128). -/
theorem endCurrent_replaced (h : s.assembler.current = some cw) :
    (endCurrent (lastSlotBegun s) s).status =
      if cw.lastSlot + 1 = cw.word.length then s.status.afterCompleted cw.word s.carrier.code.keys
      else s.status.afterAbandoned cw.word s.carrier.code.keys := by
  cases hl : lastSlotBegun s with
  | true => rw [if_pos ((lastSlotBegun_iff h).1 hl), endCurrent_completed h]
  | false =>
    have hne : cw.lastSlot + 1 ≠ cw.word.length := fun he => by
      rw [(lastSlotBegun_iff h).2 he] at hl
      cases hl
    rw [if_neg hne, endCurrent_abandoned h]

/-! ### The words at a boundary with a label (R114, R115, R126, R127, R129) -/

/-- The words at a boundary with a label, before an assembly starts at it (R126, R127, R129). -/
def assemblerWords (lab : Label) (s : State) : State :=
  let s1 := if lab.mark = .none then s else dropWords s
  if lab.second = 0 then handOver (copySlot s1) else beginSlot lab.second s1

theorem assemblerBoundary_some (lab : Label) (s : State) :
    assemblerBoundary (some lab) s =
      if lab.second = (assemblerWords lab s).assembler.slotInForce ∧ lab.minuteNumber ≠ Config.lastMinute then
        startAssembly lab (assemblerWords lab s)
      else assemblerWords lab s := rfl

/-- The start of an assembly leaves the words, the slot in force and the status unit as they are (R115). -/
theorem assemblerBoundary_words (lab : Label) (s : State) :
    (assemblerBoundary (some lab) s).assembler.current = (assemblerWords lab s).assembler.current ∧
    (assemblerBoundary (some lab) s).assembler.pendingWord = (assemblerWords lab s).assembler.pendingWord ∧
    (assemblerBoundary (some lab) s).assembler.slotInForce = (assemblerWords lab s).assembler.slotInForce ∧
    (assemblerBoundary (some lab) s).status = (assemblerWords lab s).status := by
  rw [assemblerBoundary_some]
  split
  · simp [startAssembly_assembler]
  · exact ⟨rfl, rfl, rfl, rfl⟩

variable {lab : Label}

theorem dropWords_status (h : s.assembler.current = some cw) :
    (dropWords s).status = s.status.afterAbandoned cw.word s.carrier.code.keys := by
  have hd : (discardPending s).assembler.current = some cw := h
  exact endCurrent_abandoned hd

/-- A marked boundary drops every word (R129). -/
theorem assemblerWords_marked (hm : lab.mark ≠ .none) :
    (assemblerWords lab s).assembler.current = none ∧ (assemblerWords lab s).assembler.pendingWord = none ∧
      (assemblerWords lab s).status = (dropWords s).status := by
  have hnone : (copySlot (dropWords s)).assembler.current = none := by simp [copySlot_assembler, dropWords_assembler]
  unfold assemblerWords
  simp only [hm, if_false]
  split
  · refine ⟨by simp [handOver_assembler, copySlot_assembler, dropWords_assembler], by simp [handOver_assembler], ?_⟩
    simp [handOver, endCurrent_of_none hnone]
  · exact ⟨by simp [beginSlot_assembler, dropWords_assembler], by simp [beginSlot_assembler, dropWords_assembler],
      by simp⟩

/-- At second 0 the pending word becomes the current one (R114, R126). -/
theorem assemblerWords_handOver (hm : lab.mark = .none) (h0 : lab.second = 0) :
    (assemblerWords lab s).assembler =
        { s.assembler with
          current := s.assembler.pendingWord.map ({ word := ·, lastSlot := 0 }), pendingWord := none,
          slotInForce := s.assembler.slotSetting } ∧
      (assemblerWords lab s).status = (endCurrent (lastSlotBegun s) (copySlot s)).status := by
  unfold assemblerWords
  simp only [hm, h0, if_true]
  exact ⟨by simp [handOver_assembler, copySlot_assembler], rfl⟩

/-- At any other second the current word goes on to its slot (R127). -/
theorem assemblerWords_within (hm : lab.mark = .none) (h0 : lab.second ≠ 0) :
    (assemblerWords lab s).assembler =
        { s.assembler with current := s.assembler.current.map ({ · with lastSlot := lab.second }) } ∧
      (assemblerWords lab s).status = s.status := by
  unfold assemblerWords
  simp only [hm, h0, if_true, if_false]
  exact ⟨beginSlot_assembler _ _, by simp⟩

end

/-! ### The boundary block by block (R41, R56, R58, R65, R150) -/

/-- The state at a boundary when timebase and time scale unit have handled it (R41, R65). -/
def labelled (cause : BoundaryCause) (s : State) : State := noteLimited s (timeBoundary cause (completeAssembly s))

/-- The label of the second that a boundary begins, none while time is absent or after a span exit (R41, R58, R63). -/
def beginningLabel (cause : BoundaryCause) (s : State) : Option Label :=
  (labelBoundary s.timeScale s.rules.leaps (carriedCount cause s.timebase)).1.label

section

variable {s : State} (cause : BoundaryCause)

theorem labelled_label (s : State) : (labelled cause s).timeScale.label = beginningLabel cause s := by
  simp [labelled, (timeBoundary_spec cause (completeAssembly s)).1, beginningLabel]

/-- The state at a boundary when carrier control has handled it (R170, R171). -/
def boundaryCarrier (cause : BoundaryCause) (s : State) : State :=
  carrierBoundary (beginningLabel cause s)
    (atSlotZero (beginningLabel cause s) &&
      (assemblerBoundary (beginningLabel cause s) (labelled cause s)).assembler.current.isSome)
    (assemblerBoundary (beginningLabel cause s) (labelled cause s))

theorem secondBoundary_eq (s : State) :
    secondBoundary cause s =
      formSample true (atSlotZero (beginningLabel cause s))
        (startStrobes (beginningLabel cause s) (slotStart (beginningLabel cause s) (boundaryCarrier cause s))) := by
  unfold boundaryCarrier
  rw [← labelled_label]
  rfl

/-- A slot start changes no word but for the broken flag of the current one (R161). -/
theorem slotStart_words (label : Option Label) (s : State) :
    (slotStart label s).assembler = { s.assembler with current := (slotStart label s).assembler.current } ∧
      (slotStart label s).assembler.current.map (fun cw => ({ cw.word with broken := false }, cw.lastSlot)) =
        s.assembler.current.map (fun cw => ({ cw.word with broken := false }, cw.lastSlot)) := by
  rw [slotStart_assembler]
  split
  · rw [markBroken_assembler]
    exact ⟨rfl, by simp [Function.comp_def]⟩
  · exact ⟨rfl, rfl⟩

/-- The words after a boundary are the code assembler's, but for the broken flag of the current one. -/
theorem secondBoundary_words (s : State) :
    let a := (assemblerBoundary (beginningLabel cause s) (labelled cause s)).assembler
    (secondBoundary cause s).assembler = { a with current := (secondBoundary cause s).assembler.current } ∧
      (secondBoundary cause s).assembler.current.map (fun cw => ({ cw.word with broken := false }, cw.lastSlot)) =
        a.current.map (fun cw => ({ cw.word with broken := false }, cw.lastSlot)) := by
  have h := slotStart_words (beginningLabel cause s) (boundaryCarrier cause s)
  have hc : (boundaryCarrier cause s).assembler =
      (assemblerBoundary (beginningLabel cause s) (labelled cause s)).assembler := by simp [boundaryCarrier]
  rw [hc] at h
  simpa [secondBoundary_eq] using h

theorem labelled_assembler (s : State) : (labelled cause s).assembler = (completeAssembly s).assembler := by
  simp [labelled]

/-- Without a label the slot is NIL (R150). -/
theorem slotStart_nil (s : State) : (slotStart none s).keying.latch.symbol = .nil := by
  rw [slotStart_keying]
  split <;> rfl

theorem secondBoundary_nil (h : beginningLabel cause s = none) : (secondBoundary cause s).keying.latch.symbol = .nil := by
  rw [secondBoundary_eq, h, formSample_keying]
  simpa using slotStart_nil (boundaryCarrier cause s)

/-- Without a label the words are gone, and the slot in force is the setting (R114, R130). -/
theorem secondBoundary_without_label (h : beginningLabel cause s = none) :
    (secondBoundary cause s).assembler.current = none ∧ (secondBoundary cause s).assembler.pendingWord = none ∧
      (secondBoundary cause s).assembler.assembly = none ∧
      (secondBoundary cause s).assembler.slotInForce = s.assembler.slotSetting := by
  obtain ⟨ha, hc⟩ := secondBoundary_words cause s
  rw [h, assemblerBoundary_none, labelled_assembler] at ha hc
  refine ⟨by simpa using hc, ?_, ?_, ?_⟩
  all_goals rw [ha]
  · cases hv : s.assembler.assembly with
    | none => rw [completeAssembly_of_none hv, hv]
    | some v => rw [completeAssembly_of_some hv]; rfl
  · cases hv : s.assembler.assembly with
    | none => rw [completeAssembly_of_none hv]
    | some v => rw [completeAssembly_of_some hv]; rfl

/-- At a marked boundary the words are gone (R129). -/
theorem secondBoundary_marked {lab : Label} (h : beginningLabel cause s = some lab) (hm : lab.mark ≠ .none) :
    (secondBoundary cause s).assembler.current = none ∧ (secondBoundary cause s).assembler.pendingWord = none := by
  obtain ⟨ha, hc⟩ := secondBoundary_words cause s
  obtain ⟨hcurrent, hpending, -⟩ := assemblerBoundary_words lab (labelled cause s)
  obtain ⟨hnone, hnone', -⟩ := assemblerWords_marked (s := labelled cause s) hm
  rw [h] at ha hc
  rw [hcurrent, hnone] at hc
  refine ⟨by simpa using hc, ?_⟩
  rw [ha, hpending, hnone']

/-- At second 0 without a mark, and with no assembly in progress, the pending word is handed over (R126). -/
theorem secondBoundary_handOver {lab : Label} (h : beginningLabel cause s = some lab) (hm : lab.mark = .none)
    (h0 : lab.second = 0) (hv : s.assembler.assembly = none) :
    (secondBoundary cause s).assembler.pendingWord = none ∧
      (secondBoundary cause s).assembler.current.map (fun cw => ({ cw.word with broken := false }, cw.lastSlot)) =
        s.assembler.pendingWord.map (fun w => ({ w with broken := false }, 0)) ∧
      (secondBoundary cause s).assembler.slotInForce = s.assembler.slotSetting := by
  obtain ⟨ha, hc⟩ := secondBoundary_words cause s
  obtain ⟨hcurrent, hpending, hslot, -⟩ := assemblerBoundary_words lab (labelled cause s)
  obtain ⟨hwords, -⟩ := assemblerWords_handOver (s := labelled cause s) hm h0
  rw [labelled_assembler, completeAssembly_of_none hv] at hwords
  rw [h] at ha hc
  rw [hcurrent, hwords] at hc
  refine ⟨?_, by simpa [Function.comp_def] using hc, ?_⟩
  · rw [ha, hpending, hwords]
  · rw [ha, hslot, hwords]

theorem secondBoundary_timebase (s : State) :
    (secondBoundary cause s).timebase = s.timebase.atBoundary (beginningLabel cause s) :=
  (secondBoundary_spec cause s).2.1

theorem secondBoundary_timeScale (s : State) :
    (secondBoundary cause s).timeScale =
      (labelBoundary s.timeScale s.rules.leaps (carriedCount cause s.timebase)).1 :=
  (secondBoundary_spec cause s).1

end

/-! ### What a boundary counts (R57, R161, R189) -/

/-- The second status unit differs from the first in broken and coded minutes and in holdover limited at most. -/
structure StatusUnit.SameEvents (u v : StatusUnit) : Prop where
  timeSteps : v.timeSteps = u.timeSteps
  strayPulses : v.strayPulses = u.strayPulses
  badSeconds : v.badSeconds = u.badSeconds
  framesDiscarded : v.framesDiscarded = u.framesDiscarded
  timeStep : v.timeStep = u.timeStep
  sourceDisagree : v.sourceDisagree = u.sourceDisagree

theorem StatusUnit.SameEvents.refl (u : StatusUnit) : u.SameEvents u := ⟨rfl, rfl, rfl, rfl, rfl, rfl⟩

theorem StatusUnit.SameEvents.trans {u v w : StatusUnit} (h1 : u.SameEvents v) (h2 : v.SameEvents w) : u.SameEvents w :=
  ⟨h2.timeSteps.trans h1.timeSteps, h2.strayPulses.trans h1.strayPulses, h2.badSeconds.trans h1.badSeconds,
    h2.framesDiscarded.trans h1.framesDiscarded, h2.timeStep.trans h1.timeStep,
    h2.sourceDisagree.trans h1.sourceDisagree⟩

section

variable (s : State)

theorem markBroken_events : s.status.SameEvents (markBroken s).status := by
  rw [markBroken_status]
  split <;> exact ⟨rfl, rfl, rfl, rfl, rfl, rfl⟩

theorem noteLimited_events (before : State) : s.status.SameEvents (noteLimited before s).status := by
  rw [noteLimited_status]
  exact ⟨rfl, rfl, rfl, rfl, rfl, rfl⟩

theorem endCurrent_events (completed : Bool) : s.status.SameEvents (endCurrent completed s).status := by
  cases h : s.assembler.current with
  | none => rw [endCurrent_of_none h]; exact .refl _
  | some cw =>
    cases completed with
    | true => rw [endCurrent_completed h]; exact ⟨rfl, rfl, rfl, rfl, rfl, rfl⟩
    | false => rw [endCurrent_abandoned h]; exact ⟨rfl, rfl, rfl, rfl, rfl, rfl⟩

theorem assemblerBoundary_events (label : Option Label) : s.status.SameEvents (assemblerBoundary label s).status := by
  cases label with
  | none => exact endCurrent_events (discardPending s) _
  | some lab =>
    obtain ⟨-, -, -, hstatus⟩ := assemblerBoundary_words lab s
    have hdropped : s.status.SameEvents (dropWords s).status := endCurrent_events (discardPending s) false
    rw [hstatus]
    by_cases hm : lab.mark = .none
    · by_cases h0 : lab.second = 0
      · rw [(assemblerWords_handOver hm h0).2]
        exact endCurrent_events (copySlot s) _
      · rw [(assemblerWords_within hm h0).2]
        exact .refl _
    · rw [(assemblerWords_marked hm).2.2]
      exact hdropped

theorem slotStart_events (label : Option Label) : s.status.SameEvents (slotStart label s).status := by
  unfold slotStart
  dsimp only
  split
  · exact markBroken_events s
  · exact .refl _

theorem secondBoundary_events (cause : BoundaryCause) : s.status.SameEvents (secondBoundary cause s).status := by
  have hlabelled : s.status.SameEvents (labelled cause s).status := by
    simpa [labelled] using noteLimited_events (timeBoundary cause (completeAssembly s)) s
  have hcarrier : (boundaryCarrier cause s).status =
      (assemblerBoundary (beginningLabel cause s) (labelled cause s)).status := by simp [boundaryCarrier]
  have hstarted := slotStart_events (boundaryCarrier cause s) (beginningLabel cause s)
  rw [hcarrier] at hstarted
  rw [secondBoundary_eq]
  simpa using (hlabelled.trans (assemblerBoundary_events _ _)).trans hstarted

end

/-! ### The label of a boundary without leap seconds (R58, R65, R69) -/

section

variable {t : TimeScale} {c : Nat}

theorem labelBoundary_absent (t : TimeScale) (leaps : List LeapEntry) :
    (labelBoundary t leaps none).1 = { balance := t.sumBase, pendingBalance := none, label := none } := rfl

theorem labelBoundary_nil (t : TimeScale) (c : Nat) (mark : Mark) :
    (labelBoundary t [] (some (c, mark))).1 =
      { balance := t.sumBase, pendingBalance := none
        label := if inSpan ((c : Int) - t.sumBase) then
            some (splitLabel ((c : Int) - t.sumBase).toNat c
              (if (t.sumBase != t.balance) && mark = .none then .step else mark))
          else none } := rfl

/-- A normal second by its number (R65 step 6). -/
theorem splitLabel_eq (u c : Nat) (mark : Mark) :
    splitLabel u c mark =
      { day := u / 86400, hour := u % 86400 / 3600, minute := u % 3600 / 60, second := u % 60, inserted := false, u := u,
        count := c, mark := mark } := by
  have hminute : u % 86400 % 3600 = u % 3600 := Nat.mod_mod_of_dvd _ (by decide)
  have hsecond : u % 86400 % 60 = u % 60 := Nat.mod_mod_of_dvd _ (by decide)
  simp [splitLabel, hminute, hsecond]

end

/-! ### FLYWHEEL_WRAP (R41) -/

section

variable {s : State}

/-- With no pulse at hand on L6 the wrap that is due is the boundary of its keying step. -/
theorem execFlywheelWrap_alone (hw : s.timebase.wrapDue = true) (ha : AloneInStep .lineL6 s)
    (hp : s.lineUnit.l6Pulse = false) : exec .flywheelWrap s = .next (sealStep (secondBoundary .advance s)) := by
  show Host.Outcome.next (if s.timebase.wrapDue then formWrap s else s) = _
  rw [if_pos hw, formWrap_alone hp ha.2, takeWrap, if_pos hw]

theorem beginningLabel_absent (h : s.timebase.count = none) : beginningLabel .advance s = none := by
  rw [beginningLabel, carriedCount, h]
  rfl

/-- The time scale unit at a boundary with time valid and no leap second listed (R65, R69). -/
theorem advance_timeScale {c : Nat} (h : s.timebase.count = some c) (hl : s.rules.leaps = []) :
    (secondBoundary .advance s).timeScale =
      { balance := s.timeScale.sumBase, pendingBalance := none
        label := if inSpan ((c : Int) + 1 - s.timeScale.sumBase) then
            some (splitLabel ((c : Int) + 1 - s.timeScale.sumBase).toNat (c + 1)
              (if s.timeScale.sumBase = s.timeScale.balance then .none else .step))
          else none } := by
  rw [secondBoundary_timeScale, carriedCount, h, hl]
  rw [show (some c).map (fun c => (c + 1, Mark.none)) = some (c + 1, Mark.none) from rfl, labelBoundary_nil]
  by_cases hb : s.timeScale.sumBase = s.timeScale.balance <;> simp [hb]

theorem beginningLabel_eq (cause : BoundaryCause) (s : State) :
    beginningLabel cause s = (secondBoundary cause s).timeScale.label := by
  rw [secondBoundary_timeScale]
  rfl

theorem wrapBoundary_timebase (s : State) :
    (secondBoundary .advance s).timebase = s.timebase.atBoundary (secondBoundary .advance s).timeScale.label := by
  rw [secondBoundary_timebase, beginningLabel_eq]

variable {c : Nat} {lab : Label}

/-- With time absent the balance is taken over and there is no label (R65, R69). -/
theorem wrapBoundary_absent (h : s.timebase.count = none) :
    (secondBoundary .advance s).timeScale =
      { balance := s.timeScale.sumBase, pendingBalance := none, label := none } := by
  rw [secondBoundary_timeScale, carriedCount, h]
  exact labelBoundary_absent _ _

/-- The timebase at a labelled boundary (R41, R56). -/
theorem wrapBoundary_labelled (h : (secondBoundary .advance s).timeScale.label = some lab) :
    (secondBoundary .advance s).timebase.count = some lab.count ∧
      (secondBoundary .advance s).timebase.holdover =
        if s.timebase.active = none then min 4294967295 (s.timebase.holdover + 1) else s.timebase.holdover := by
  rw [wrapBoundary_timebase, h]
  exact ⟨rfl, by simp [Timebase.atBoundary, Config.holdoverMax]⟩

theorem Monitor.afterSpanExit_eq (mon : Monitor) :
    mon.afterSpanExit = { mon with state := if mon.state = .active then .qualified else mon.state } := by
  unfold Monitor.afterSpanExit
  split
  · rfl
  · rfl

/-- A boundary without a label leaves time absent and no source active (R41, R58). -/
theorem wrapBoundary_unlabelled (h : (secondBoundary .advance s).timeScale.label = none) :
    (secondBoundary .advance s).timebase.count = none ∧ (secondBoundary .advance s).timebase.active = none ∧
      (secondBoundary .advance s).timebase.holdover = s.timebase.holdover ∧
      ∀ x, (secondBoundary .advance s).monitor x =
        { s.monitor x with state := if (s.monitor x).state = .active then .qualified else (s.monitor x).state } := by
  unfold State.monitor
  rw [wrapBoundary_timebase, h]
  refine ⟨rfl, rfl, rfl, fun x => ?_⟩
  rw [← Monitor.afterSpanExit_eq]
  cases x
  · rfl
  · rfl

/-- A second out of the span has no label (R58). -/
theorem wrapBoundary_out_of_span (h : s.timebase.count = some c) (hl : s.rules.leaps = [])
    (hu : (c : Int) + 1 - s.timeScale.sumBase < 0 ∨ 3155759999 < (c : Int) + 1 - s.timeScale.sumBase) :
    (secondBoundary .advance s).timeScale.label = none := by
  have hout : ¬ inSpan ((c : Int) + 1 - s.timeScale.sumBase) = true := fun hi => by
    have := (inSpan_iff _).1 hi
    omega
  rw [advance_timeScale h hl, if_neg hout]

/-- A pending balance that differs gives the second the mark STEP (R69). -/
theorem wrapBoundary_step (h : s.timebase.count = some c) (hl : s.rules.leaps = [])
    (h0 : 0 ≤ (c : Int) + 1 - s.timeScale.sumBase) (hu : (c : Int) + 1 - s.timeScale.sumBase ≤ 3155759999)
    (hb : s.timeScale.sumBase ≠ s.timeScale.balance) :
    (secondBoundary .advance s).timeScale =
      { balance := s.timeScale.sumBase, pendingBalance := none
        label := some (splitLabel ((c : Int) + 1 - s.timeScale.sumBase).toNat (c + 1) .step) } := by
  rw [advance_timeScale h hl, if_pos ((inSpan_iff _).2 ⟨h0, hu⟩), if_neg hb]

/-- The next second with nothing pending (R65 step 6). -/
theorem wrapBoundary_second {u : Nat} (h : s.timebase.count = some c) (hl : s.rules.leaps = [])
    (hp : s.timeScale.pendingBalance = none) (hu : (u : Int) = (c : Int) + 1 - s.timeScale.balance)
    (hlt : u < 3155760000) :
    (secondBoundary .advance s).timeScale =
      { balance := s.timeScale.balance, pendingBalance := none, label := some (splitLabel u (c + 1) .none) } := by
  have hsum : s.timeScale.sumBase = s.timeScale.balance := by rw [TimeScale.sumBase, hp]; rfl
  have hspan : inSpan (u : Int) = true := (inSpan_iff _).2 ⟨by omega, by omega⟩
  rw [advance_timeScale h hl, hsum, ← hu, if_pos hspan, if_pos rfl, Int.toNat_natCast]

end

/-- Settles O33: the words by the label, and the boundary of the wrap block by block. -/
theorem wrapMakesTheBoundary : Obligations.WrapMakesTheBoundary := by
  unfold Obligations.WrapMakesTheBoundary
  refine ⟨?words, ?wrap⟩
  case words =>
    intro label s cw h t keyed lastBegun completed abandoned
    have hkeyed : s.carrier.code.keys = keyed := CodeState.keys_eq _
    have hdiscarded : (discardPending s).assembler.current = some cw := h
    have hcopied : (copySlot s).assembler.current = some cw := h
    have replaced {u : StatusUnit} (hu : u = if cw.lastSlot + 1 = cw.word.length then
        s.status.afterCompleted cw.word s.carrier.code.keys else s.status.afterAbandoned cw.word s.carrier.code.keys) :
        (lastBegun → u = s.status.afterCompleted cw.word keyed) ∧
          (¬lastBegun → u = s.status.afterAbandoned cw.word keyed) := by
      rw [hkeyed] at hu
      exact ⟨fun hl => hu.trans (if_pos hl), fun hl => hu.trans (if_neg hl)⟩
    refine ⟨?_, ?_⟩
    · rintro rfl
      obtain ⟨hcompleted, habandoned⟩ := replaced (u := t.status) (endCurrent_replaced hdiscarded)
      have ht : t.assembler = _ := assemblerBoundary_none s
      exact ⟨by rw [ht], by rw [ht], hcompleted, habandoned⟩
    · rintro lab rfl
      obtain ⟨hcurrent, hpending, -, hstatus⟩ := assemblerBoundary_words lab s
      refine ⟨fun hm => ?_, fun hm h0 => ?_, fun hm h0 => ?_⟩
      · obtain ⟨hc, hn, hs⟩ := assemblerWords_marked (s := s) hm
        refine ⟨hcurrent.trans hc, hpending.trans hn, ?_⟩
        exact (hstatus.trans hs).trans ((dropWords_status h).trans (by rw [hkeyed]; rfl))
      · obtain ⟨hwords, hs⟩ := assemblerWords_handOver (s := s) hm h0
        obtain ⟨hcompleted, habandoned⟩ := replaced ((hstatus.trans hs).trans (endCurrent_replaced hcopied))
        exact ⟨hpending.trans (by rw [hwords]), hcurrent.trans (by rw [hwords]), hcompleted, habandoned⟩
      · obtain ⟨hwords, hs⟩ := assemblerWords_within (s := s) hm h0
        exact ⟨hcurrent.trans (by rw [hwords, h]; rfl), hpending.trans (by rw [hwords]), hstatus.trans hs⟩
  case wrap =>
    intro s hw ha hp
    obtain ⟨-, -, -, hj, hstart, hminute, hunit⟩ := secondBoundary_spec .advance s
    have hlabel := beginningLabel_eq .advance s
    obtain ⟨hm, hdue, -, -⟩ := Timebase.atBoundary_fields s.timebase (beginningLabel .advance s)
    have hstrobes : (secondBoundary .advance s).lineUnit.strobes = _ :=
      congrArg LineUnit.strobes (hunit.trans (startStrobes_strobes _ s))
    refine ⟨sealStep (secondBoundary .advance s), execFlywheelWrap_alone hw ha hp, ?_⟩
    rw [← secondBoundary_timeScale] at hminute hstrobes
    have hevents := secondBoundary_events s .advance
    refine ⟨(congrArg Timebase.wrapDue (secondBoundary_timebase _ _)).trans hdue,
      (congrArg Timebase.m (secondBoundary_timebase _ _)).trans hm, hj, hstart, hminute,
      congrArg Strobes.second hstrobes, congrArg Strobes.minute hstrobes, congrArg Strobes.slot hstrobes,
      by simp, by simp, fun h => ?absent, fun c h hl => ⟨fun h0 hu hb => ?step, fun hu => ?out⟩,
      fun c u h hl hn hu hlt => ?second⟩
    case absent =>
      have hnone := beginningLabel_absent h
      have hscale := wrapBoundary_absent h
      rw [hlabel] at hnone
      obtain ⟨hc, hq, hv, hslot⟩ := secondBoundary_without_label .advance (hlabel.trans hnone)
      exact ⟨hnone, (wrapBoundary_unlabelled hnone).1, secondBoundary_nil .advance (hlabel.trans hnone), hc, hq, hv, hslot,
        congrArg TimeScale.balance hscale, congrArg TimeScale.pendingBalance hscale⟩
    case step =>
      have hscale := wrapBoundary_step h hl h0 hu hb
      have hlab := congrArg TimeScale.label hscale
      obtain ⟨hc, hq⟩ := secondBoundary_marked .advance (hlabel.trans hlab) (by simp [splitLabel])
      exact ⟨congrArg TimeScale.balance hscale, congrArg TimeScale.pendingBalance hscale,
        ⟨_, hlab, rfl, Int.toNat_of_nonneg h0, rfl⟩, (wrapBoundary_labelled hlab).1, hc, hq, hevents.timeSteps,
        hevents.timeStep⟩
    case out =>
      have hnone := wrapBoundary_out_of_span h hl hu
      obtain ⟨hcount, hactive, hheld, hmonitors⟩ := wrapBoundary_unlabelled hnone
      obtain ⟨hc, hq, -, -⟩ := secondBoundary_without_label .advance (hlabel.trans hnone)
      exact ⟨hnone, hcount, hactive, hheld, hc, hq, hmonitors⟩
    case second =>
      have hscale := wrapBoundary_second h hl hn hu hlt
      have hlab := congrArg TimeScale.label hscale
      obtain ⟨hcount, hheld⟩ := wrapBoundary_labelled hlab
      rw [splitLabel_eq] at hscale
      refine ⟨hcount, hscale, hheld, fun h0 hv => ?_⟩
      have hzero : (splitLabel u (c + 1) .none).second = 0 := by rw [splitLabel_eq]; exact h0
      obtain ⟨hq, hc, hslot⟩ := secondBoundary_handOver .advance (hlabel.trans hlab) rfl hzero hv
      exact ⟨hq, hc, hslot⟩

end Sys2Proof.Machine

/-! PROOFS. Pulses and missing seconds that do not steer (O43): what a pulse's frame and stray count do, and the judgement's
effect on its source. -/

namespace Sys2Proof.Machine

section

variable {x : Link} {i : PulseInput} {s : State}

/-! ### A pulse on an input, judged at once (R42, R44, R184) -/

/-- An edge that is a pulse of the source is taken as one; a pulse on L6 is taken off the line unit first (log 27). -/
theorem takeEdge_of_pulseOn (h : PulseOn x i s) :
    ∃ unit : LineUnit, unit.lines = s.lineUnit.lines ∧
      ((s.lineUnit.l6Pulse = true → i = .lineL6) → unit.l6Pulse = false) ∧
      takeEdge i s = takePulse x (s.withLineUnit unit) := by
  rcases h with ⟨rfl, rfl⟩ | ⟨rfl, rfl, hrouted⟩ | ⟨rfl, rfl, hpulse⟩
  · exact ⟨s.lineUnit, rfl, by simp, rfl⟩
  · exact ⟨s.lineUnit, rfl, by simp, by rw [takeEdge, hrouted]; rfl⟩
  · exact ⟨{ s.lineUnit with l6Pulse := false }, rfl, fun _ => rfl, by rw [takeEdge, takeL6Pulse, if_pos hpulse]⟩

/-- Outside a wrap a source's pulse that need not wait is judged and nothing else. -/
theorem execPulse_judged (h : PulseOn x i s) (hd : (s.monitor x).state ≠ .down) (hp : pulseWaits s = false)
    (hw : s.timebase.wrapDue = false) :
    ∃ unit : LineUnit, exec (.pulse ⟨i, none⟩) s = .next (judgeSecond x (s.withLineUnit unit)) := by
  obtain ⟨unit, -, -, hedge⟩ := takeEdge_of_pulseOn h
  refine ⟨unit, (execPulse_no_wrap ⟨i, none⟩ hw).trans (congrArg Host.Outcome.next ?_)⟩
  exact hedge.trans (takePulse_of_judged hd hp)

/-! ### What every pulse does before its judgement counts (R44, R45) -/

/-- A monitor with its pulse timer restarted (R45). -/
def Monitor.restarted (mon : Monitor) : Monitor := { mon with timer := some 0, missed := 0, missDue := false }

/-- The state when a pulse has consumed the latch and restarted the timer, and its frame's range, its leap hint and a stray pulse
are noted (R44, R45, R92). -/
def consumed (x : Link) (s : State) : State :=
  noteStray x (pulseOffset s.timebase.m) (noteFrame x (s.link x).latch (consumePulse x s))

/-- The judgement of a source's pulse as the state stands (R44). -/
def judgementOf (x : Link) (s : State) : Judgement :=
  judgePulse s.timebase.settings s.timeScale.balance (s.monitor x) (s.link x).latch (pulseOffset s.timebase.m)

theorem consumePulse_timebase (x : Link) (s : State) :
    (consumePulse x s).timebase = { s.timebase with monitors := s.timebase.monitors.set x (s.monitor x).restarted } := rfl

theorem consumed_timebase (x : Link) (s : State) :
    (consumed x s).timebase = { s.timebase with monitors := s.timebase.monitors.set x (s.monitor x).restarted } := by
  simp [consumed, consumePulse_timebase]

theorem checkHint_leaps (f : EpochFrame) (s : State) : (checkHint f s).rules.leaps = s.rules.leaps := by
  unfold checkHint
  dsimp only
  split
  · rfl
  · rfl

/-- A frame within the span is checked for its leap hint (R92). -/
theorem noteFrame_in {f : EpochFrame} (h : inSpan ((f.count : Int) - s.timeScale.balance) = true) :
    noteFrame x (some f) s = checkHint f s := if_pos h

/-- A frame outside the span records EPOCH_RANGE (R44). -/
theorem noteFrame_out {f : EpochFrame} (h : ¬ inSpan ((f.count : Int) - s.timeScale.balance) = true) :
    noteFrame x (some f) s = recordError x .epochRange s := if_neg h

theorem noteFrame_leaps (frame : Option EpochFrame) : (noteFrame x frame s).rules.leaps = s.rules.leaps := by
  cases frame with
  | none => rfl
  | some f =>
    by_cases h : inSpan ((f.count : Int) - s.timeScale.balance) = true
    · rw [noteFrame_in h, checkHint_leaps]
    · rw [noteFrame_out h]
      simp

@[simp] theorem consumed_frame (x : Link) (s : State) :
    (consumed x s).timeScale = s.timeScale ∧ (consumed x s).assembler = s.assembler ∧
      (consumed x s).keying = s.keying ∧ (consumed x s).carrier = s.carrier ∧ (consumed x s).lineUnit = s.lineUnit ∧
      (consumed x s).rules.leaps = s.rules.leaps := by
  simp [consumed, noteFrame_leaps]

@[simp] theorem consumed_monitor_same (x : Link) (s : State) : (consumed x s).monitor x = (s.monitor x).restarted := by
  rw [State.monitor, consumed_timebase, PerLink.get_set_same]

/-- EPOCH_RANGE sets its bit and neither quarantines nor discards (R13, R15). -/
theorem LinkState.recordError_epochRange (l : LinkState) :
    l.recordError .epochRange = { l with errors := l.errors ||| 0x0200 } := by
  have hbit : onlyBit ErrKind.epochRange.bit = 0x0200 := by decide
  simp [LinkState.recordError, hbit, ErrKind.quarantines]

/-- Whether the latch holds a frame whose U lies outside the span (R44). -/
def outOfSpan (balance : Int) (frame : Option EpochFrame) : Bool :=
  frame.any fun f => decide ((f.count : Int) - balance < 0 ∨ 3155759999 < (f.count : Int) - balance)

theorem outOfSpan_some (balance : Int) (f : EpochFrame) :
    outOfSpan balance (some f) = !inSpan ((f.count : Int) - balance) := by
  by_cases h : inSpan ((f.count : Int) - balance) = true
  · have hin := (inSpan_iff _).1 h
    simp only [outOfSpan, Option.any_some, h, Bool.not_true, decide_eq_false_iff_not]
    omega
  · have hout := mt (inSpan_iff _).2 h
    simp only [outOfSpan, Option.any_some, h, Bool.not_false, decide_eq_true_iff]
    omega

theorem noteFrame_link (frame : Option EpochFrame) :
    (noteFrame x frame s).link x =
        { s.link x with
          errors := (s.link x).errors ||| if outOfSpan s.timeScale.balance frame then 0x0200 else 0 } ∧
      (noteFrame x frame s).link x.other = s.link x.other := by
  cases frame with
  | none => simp [noteFrame, outOfSpan]
  | some f =>
    rw [outOfSpan_some]
    by_cases h : inSpan ((f.count : Int) - s.timeScale.balance) = true
    · rw [noteFrame_in h, h]
      simp
    · rw [noteFrame_out h, recordError_link_same, LinkState.recordError_epochRange]
      simp [h]

/-- A pulse consumes the latch; a frame outside the span leaves EPOCH_RANGE on its link and nothing else (R44). -/
theorem consumed_link (x : Link) (s : State) :
    (consumed x s).link x =
        { s.link x with
          latch := none
          errors := (s.link x).errors ||| if outOfSpan s.timeScale.balance (s.link x).latch then 0x0200 else 0 } ∧
      (consumed x s).link x.other = s.link x.other := by
  obtain ⟨hsame, hother⟩ := noteFrame_link (x := x) (s := consumePulse x s) (s.link x).latch
  have hlink : (consumePulse x s).link x = { s.link x with latch := none } := by simp [consumePulse]
  have hlink' : (consumePulse x s).link x.other = s.link x.other := by simp [consumePulse]
  rw [hlink] at hsame
  rw [hlink'] at hother
  refine ⟨?_, ?_⟩
  · simpa [consumed] using hsame
  · simpa [consumed] using hother

theorem noteFrame_status (frame : Option EpochFrame) :
    (noteFrame x frame s).status = { s.status with leapMismatch := (noteFrame x frame s).status.leapMismatch } := by
  cases frame with
  | none => rfl
  | some f =>
    by_cases h : inSpan ((f.count : Int) - s.timeScale.balance) = true
    · rw [noteFrame_in h]
      unfold checkHint
      dsimp only
      split
      · rfl
      · rfl
    · rw [noteFrame_out h, recordError_status]
      rfl

/-- Before the judgement counts, a pulse changes STRAY_PULSES and LEAP_MISMATCH of the status unit at most (R44, R92). -/
theorem consumed_status (x : Link) (s : State) :
    (consumed x s).status =
      { s.status with
        leapMismatch := (consumed x s).status.leapMismatch
        strayPulses :=
          if (s.monitor x).state = .active ∧ s.timebase.settings.window < (pulseOffset s.timebase.m).natAbs then
            s.status.strayPulses.set x (countUp (s.status.strayPulses.get x))
          else s.status.strayPulses } := by
  have hframe := noteFrame_status (x := x) (s := consumePulse x s) (s.link x).latch
  have hmonitor : (consumePulse x s).monitor x = (s.monitor x).restarted := by
    rw [State.monitor, consumePulse_timebase, PerLink.get_set_same]
  have hstray : notStray s.timebase.settings (s.monitor x).restarted (pulseOffset s.timebase.m) = true ↔
      ¬((s.monitor x).state = .active ∧ s.timebase.settings.window < (pulseOffset s.timebase.m).natAbs) := by
    rw [notStray_iff, not_and, not_lt]
    rfl
  unfold consumed noteStray
  simp only [noteFrame_frame, hmonitor]
  split
  · next h =>
    rw [if_neg (hstray.1 h)]
    exact hframe
  · next h =>
    rw [if_pos (not_not.1 (mt hstray.2 h))]
    rw [hframe]
    rfl

end

/-! ### The judgement's effect (R46) -/

section

variable {x : Link} {f : EpochFrame} {s : State}

/-- A pulse without a frame is never more than a bad second (R44 condition 1). -/
theorem latch_of_not_bad (h : judgementOf x s ≠ .bad) : ∃ f, (s.link x).latch = some f := by
  cases hl : (s.link x).latch with
  | none => exact absurd (by rw [judgementOf, hl]; rfl) h
  | some f => exact ⟨f, rfl⟩

theorem judgeSecond_bad (h : judgementOf x s = .bad) : judgeSecond x s = badSecond x (consumed x s) := by
  unfold judgementOf at h
  unfold judgeSecond consumed
  dsimp only
  rw [h]

theorem judgeSecond_starting (h : judgementOf x s = .starting) (hl : (s.link x).latch = some f) :
    judgeSecond x s = startingSecond x f (pulseOffset s.timebase.m) (consumed x s) := by
  unfold judgementOf at h
  unfold judgeSecond consumed
  dsimp only
  rw [h, hl]

theorem judgeSecond_good (h : judgementOf x s = .good) (hl : (s.link x).latch = some f) :
    judgeSecond x s = goodSecond x f (pulseOffset s.timebase.m) (consumed x s) := by
  unfold judgementOf at h
  unfold judgeSecond consumed
  dsimp only
  rw [h, hl]

/-- The state when a good second is counted and nothing else has come of it yet (R46). -/
def credited (x : Link) (f : EpochFrame) (s : State) : State :=
  (consumed x s).setMonitor x
    ((s.monitor x).restarted.afterGood s.timebase.settings.qualify f (pulseOffset s.timebase.m))

/-- What a counted good second comes to, by its source's state before and after (R46, R48, R50, R55). -/
theorem judgeSecond_good_eq (h : judgementOf x s = .good) (hl : (s.link x).latch = some f) :
    judgeSecond x s =
      if (s.monitor x).state = .active then steer x (pulseOffset s.timebase.m) (credited x f s)
      else if ((credited x f s).monitor x).state = .qualified then
        if s.timebase.active = none then adopt x f (pulseOffset s.timebase.m) (credited x f s)
        else revertiveTest x f (pulseOffset s.timebase.m) (credited x f s)
      else credited x f s := by
  have hsettings : (consumed x s).timebase.settings = s.timebase.settings := by rw [consumed_timebase]
  have hactive : (credited x f s).timebase.active = s.timebase.active := by simp [credited, consumed_timebase]
  rw [judgeSecond_good h hl]
  unfold goodSecond
  simp only [consumed_monitor_same, hsettings]
  rw [← hactive]
  rfl

theorem credited_timebase (x : Link) (f : EpochFrame) (s : State) :
    (credited x f s).timebase =
      { s.timebase with
        monitors := s.timebase.monitors.set x
          ((s.monitor x).restarted.afterGood s.timebase.settings.qualify f (pulseOffset s.timebase.m)) } := by
  simp [credited, consumed_timebase]

@[simp] theorem credited_frame (x : Link) (f : EpochFrame) (s : State) :
    (credited x f s).timeScale = s.timeScale ∧ (credited x f s).assembler = s.assembler ∧
      (credited x f s).keying = s.keying ∧ (credited x f s).carrier = s.carrier ∧
      (credited x f s).lineUnit = s.lineUnit ∧ (credited x f s).rules.leaps = s.rules.leaps ∧
      (credited x f s).status = (consumed x s).status ∧ ∀ y, (credited x f s).link y = (consumed x s).link y := by
  simp [credited]

@[simp] theorem credited_monitor_same (x : Link) (f : EpochFrame) (s : State) :
    (credited x f s).monitor x =
      (s.monitor x).restarted.afterGood s.timebase.settings.qualify f (pulseOffset s.timebase.m) := by
  simp [credited]

end

/-! ### The counters of pulses and frames after the judgement (R188) -/

/-- STRAY_PULSES and FRAMES_DISCARDED are the same. -/
structure StatusUnit.SamePulses (u v : StatusUnit) : Prop where
  strayPulses : v.strayPulses = u.strayPulses
  framesDiscarded : v.framesDiscarded = u.framesDiscarded

theorem StatusUnit.SameEvents.pulses {u v : StatusUnit} (h : u.SameEvents v) : u.SamePulses v :=
  ⟨h.strayPulses, h.framesDiscarded⟩

section

variable (x : Link) (f : EpochFrame) (e : Int) (s : State)

theorem steer_events : s.status.SameEvents (steer x e s).status := by
  unfold steer
  split
  · simpa using secondBoundary_events (setPhase x s) .advance
  · split
    · exact .refl _
    · simpa using StatusUnit.SameEvents.refl s.status

theorem steer_activate_events : s.status.SameEvents (steer x e (activate x s)).status := by
  simpa using steer_events x e (activate x s)

theorem adopt_pulses : s.status.SamePulses (adopt x f e s).status := by
  unfold adopt
  dsimp only
  split
  · simpa using (secondBoundary_events (setPhase x (activate x s)) (.adopted f.count .first)).pulses
  · split
    · exact (steer_activate_events x e s).pulses
    · obtain ⟨hstray, hframes⟩ := (secondBoundary_events (setPhase x ((activate x s).withStatus
        { (activate x s).status with timeSteps := countUp (activate x s).status.timeSteps, timeStep := true }))
        (.adopted f.count .step)).pulses
      exact ⟨by simpa using hstray, by simpa using hframes⟩

theorem revertiveTest_pulses : s.status.SamePulses (revertiveTest x f e s).status := by
  unfold revertiveTest
  split
  · split
    · exact (steer_activate_events x e s).pulses
    · exact ⟨rfl, rfl⟩
  · exact ⟨rfl, rfl⟩

theorem badSecond_status :
    (badSecond x s).status =
      { s.status with
        badSeconds := s.status.badSeconds.set x (countUp (s.status.badSeconds.get x))
        holdoverLimited := (badSecond x s).status.holdoverLimited } := by
  unfold badSecond
  dsimp only
  rw [noteLimited_status]
  split
  · rfl
  · rfl

theorem badSecond_pulses : s.status.SamePulses (badSecond x s).status := by
  rw [badSecond_status]
  exact ⟨rfl, rfl⟩

theorem judgeSecond_pulses : (consumed x s).status.SamePulses (judgeSecond x s).status := by
  by_cases hbad : judgementOf x s = .bad
  · rw [judgeSecond_bad hbad]
    exact badSecond_pulses x _
  · obtain ⟨f, hl⟩ := latch_of_not_bad hbad
    cases hj : judgementOf x s with
    | bad => exact absurd hj hbad
    | starting =>
      rw [judgeSecond_starting hj hl]
      simpa using (StatusUnit.SameEvents.refl (consumed x s).status).pulses
    | good =>
      have hstatus : (credited x f s).status = (consumed x s).status := by simp
      rw [judgeSecond_good_eq hj hl, ← hstatus]
      split
      · exact (steer_events x _ _).pulses
      · split
        · split
          · exact adopt_pulses x f _ _
          · exact revertiveTest_pulses x f _ _
        · exact ⟨rfl, rfl⟩

theorem judgeSecond_link (y : Link) : (judgeSecond x s).link y = (consumed x s).link y := by
  by_cases hbad : judgementOf x s = .bad
  · simp [judgeSecond_bad hbad]
  · obtain ⟨f, hl⟩ := latch_of_not_bad hbad
    cases hj : judgementOf x s with
    | bad => exact absurd hj hbad
    | starting => simp [judgeSecond_starting hj hl]
    | good => simp [judgeSecond_good hj hl]

end

/-! ### The monitor of a source through boundary, steering and adoption (R46, R50, R58) -/

section

variable {x : Link} {f : EpochFrame} {s : State} {n : Nat}

theorem secondBoundary_monitor (cause : BoundaryCause) (s : State) (x : Link) :
    (secondBoundary cause s).monitor x =
      if (beginningLabel cause s).isSome then s.monitor x else (s.monitor x).afterSpanExit := by
  rw [State.monitor, secondBoundary_timebase]
  cases beginningLabel cause s with
  | none => cases x <;> rfl
  | some lab => rfl

@[simp] theorem setPhase_monitor_same (x : Link) (s : State) :
    (setPhase x s).monitor x = { s.monitor x with last := (s.monitor x).last.map (fun p => (p.1, 0)) } := by
  cases x <;> rfl

@[simp] theorem setPhase_monitor_other (x : Link) (s : State) : (setPhase x s).monitor x.other = s.monitor x.other := by
  cases x <;> rfl

@[simp] theorem activate_monitor_same (x : Link) (s : State) :
    (activate x s).monitor x = { s.monitor x with state := .active } := by
  simp [State.monitor, activate_timebase]

@[simp] theorem activate_monitor_other (x : Link) (s : State) :
    (activate x s).monitor x.other = (s.monitor x.other).yielded := by
  simp [State.monitor, activate_timebase]

/-- A monitor that has counted n good seconds and is HUNTING no longer. -/
def Monitor.Counted (n : Nat) (mon : Monitor) : Prop := mon.good = n ∧ mon.state ≠ .hunting

theorem Monitor.Counted.afterSpanExit {mon : Monitor} (h : mon.Counted n) : mon.afterSpanExit.Counted n := by
  unfold Monitor.afterSpanExit
  split
  · exact ⟨h.1, by simp⟩
  · exact h

theorem Monitor.Counted.secondBoundary (h : (s.monitor x).Counted n) (cause : BoundaryCause) :
    ((Machine.secondBoundary cause s).monitor x).Counted n := by
  rw [secondBoundary_monitor]
  split
  · exact h
  · exact h.afterSpanExit

theorem Monitor.Counted.setPhase (h : (s.monitor x).Counted n) : ((Machine.setPhase x s).monitor x).Counted n := by
  rw [setPhase_monitor_same]
  exact h

theorem Monitor.Counted.steer (h : (s.monitor x).Counted n) (e : Int) :
    ((Machine.steer x e s).monitor x).Counted n := by
  unfold Machine.steer
  split
  · exact h.setPhase.secondBoundary _
  · split
    · exact h
    · simpa using h.setPhase

theorem Monitor.Counted.adopt (h : (s.monitor x).Counted n) (f : EpochFrame) (e : Int) :
    ((Machine.adopt x f e s).monitor x).Counted n := by
  have hactive : ((activate x s).monitor x).Counted n := by
    rw [activate_monitor_same]
    exact ⟨h.1, by simp⟩
  unfold Machine.adopt
  dsimp only
  split
  · exact hactive.setPhase.secondBoundary _
  · split
    · exact hactive.steer e
    · exact Monitor.Counted.secondBoundary (Monitor.Counted.setPhase (by exact hactive)) _

end

/-! ### A pulse and a missing second as their source sees them -/

/-- What a pulse or a missing second that does not steer leaves as it is. -/
structure State.Untouched (x : Link) (s t : State) : Prop where
  m : t.timebase.m = s.timebase.m
  count : t.timebase.count = s.timebase.count
  timeScale : t.timeScale = s.timeScale
  assembler : t.assembler = s.assembler
  keying : t.keying = s.keying
  carrier : t.carrier = s.carrier
  leaps : t.rules.leaps = s.rules.leaps
  monitor : t.monitor x.other = s.monitor x.other

section

variable {x : Link} {f : EpochFrame} {s t u : State}

theorem State.Untouched.trans (h1 : s.Untouched x t) (h2 : t.Untouched x u) : s.Untouched x u where
  m := h2.m.trans h1.m
  count := h2.count.trans h1.count
  timeScale := h2.timeScale.trans h1.timeScale
  assembler := h2.assembler.trans h1.assembler
  keying := h2.keying.trans h1.keying
  carrier := h2.carrier.trans h1.carrier
  leaps := h2.leaps.trans h1.leaps
  monitor := h2.monitor.trans h1.monitor

theorem setMonitor_untouched (x : Link) (mon : Monitor) (s : State) : s.Untouched x (s.setMonitor x mon) :=
  ⟨rfl, rfl, rfl, rfl, rfl, rfl, rfl, by simp⟩

theorem withLineUnit_untouched (x : Link) (unit : LineUnit) (s : State) : s.Untouched x (s.withLineUnit unit) :=
  ⟨rfl, rfl, rfl, rfl, rfl, rfl, rfl, rfl⟩

theorem consumed_untouched (x : Link) (s : State) : s.Untouched x (consumed x s) := by
  obtain ⟨hscale, hassembler, hkeying, hcarrier, -, hleaps⟩ := consumed_frame x s
  exact ⟨by rw [consumed_timebase], by rw [consumed_timebase], hscale, hassembler, hkeying, hcarrier, hleaps,
    by rw [State.monitor, consumed_timebase]; exact PerLink.get_set_other _ _ _⟩

theorem badSecond_untouched (x : Link) (s : State) : s.Untouched x (badSecond x s) := by
  refine ⟨badSecond_m x s, by rw [badSecond_timebase], by simp, by simp, by simp, by simp, by simp, ?_⟩
  rw [State.monitor, badSecond_timebase]
  exact PerLink.get_set_other _ _ _

theorem badSecond_monitor_same (x : Link) (s : State) : (badSecond x s).monitor x = (s.monitor x).afterBad := by
  rw [State.monitor, badSecond_timebase]
  exact PerLink.get_set_same _ _ _

/-- A bad second of an ACTIVE source leaves no active source, and counts (R46, R49, R188). -/
theorem badSecond_lost (x : Link) (s : State) :
    (badSecond x s).timebase.active = (if (s.monitor x).state = .active then none else s.timebase.active) ∧
      (badSecond x s).status.badSeconds.get x = min 65535 (s.status.badSeconds.get x + 1) := by
  refine ⟨by rw [badSecond_timebase], ?_⟩
  rw [badSecond_status, ← countUp_eq]
  exact PerLink.get_set_same _ _ _

/-- A HUNTING source short of N stays HUNTING with one more good second (R46). -/
theorem afterGood_short {mon : Monitor} {n : Nat} {e : Int} (h : mon.state = .hunting) (hn : mon.good + 1 < n) :
    mon.afterGood n f e = { mon with state := .hunting, good := mon.good + 1, last := some (f.count, e) } := by
  have hmin : min n (mon.good + 1) = mon.good + 1 := by omega
  have hshort : ¬(mon.state = .hunting ∧ n ≤ mon.good + 1) := by omega
  simp only [Monitor.afterGood, hmin, if_neg hshort]
  rw [h]

/-- A HUNTING source that reaches N is QUALIFIED (R46). -/
theorem afterGood_reached {mon : Monitor} {n : Nat} {e : Int} (h : mon.state = .hunting) (hn : n ≤ mon.good + 1) :
    mon.afterGood n f e = { mon with state := .qualified, good := n, last := some (f.count, e) } := by
  have hmin : min n (mon.good + 1) = n := by omega
  simp [Monitor.afterGood, hmin, h]

/-- A good second of a HUNTING source short of N counts on and comes to nothing else. -/
theorem judgeSecond_short (hj : judgementOf x s = .good) (hl : (s.link x).latch = some f)
    (hs : (s.monitor x).state = .hunting) (hn : (s.monitor x).good + 1 < s.timebase.settings.qualify) :
    judgeSecond x s = credited x f s := by
  have hmon : (credited x f s).monitor x = _ := (credited_monitor_same x f s).trans (afterGood_short hs hn)
  rw [judgeSecond_good_eq hj hl, if_neg (by simp [hs]), if_neg (by simp [hmon])]

/-- A good second with which a HUNTING source reaches N while no source is active adopts it (R50). -/
theorem judgeSecond_reached (hj : judgementOf x s = .good) (hl : (s.link x).latch = some f)
    (hs : (s.monitor x).state = .hunting) (hn : s.timebase.settings.qualify ≤ (s.monitor x).good + 1)
    (ha : s.timebase.active = none) :
    ((judgeSecond x s).monitor x).Counted s.timebase.settings.qualify := by
  have hmon : (credited x f s).monitor x = _ := (credited_monitor_same x f s).trans (afterGood_reached hs hn)
  have hcounted : ((credited x f s).monitor x).Counted s.timebase.settings.qualify := by
    rw [hmon]
    exact ⟨rfl, by simp⟩
  rw [judgeSecond_good_eq hj hl, if_neg (by simp [hs]), if_pos (by rw [hmon]), if_pos ha]
  exact hcounted.adopt f _

theorem afterBad_of_not_down {mon : Monitor} (h : mon.state ≠ .down) :
    mon.afterBad = { mon with state := .hunting, good := 0, last := none } := by
  simp [Monitor.afterBad, h]

/-- What a second that does not make its source active leaves of active source and BAD_SECONDS. -/
def State.SameSource (s t : State) : Prop :=
  t.timebase.active = s.timebase.active ∧ t.status.badSeconds = s.status.badSeconds

theorem consumed_sameSource (x : Link) (s : State) : s.SameSource (consumed x s) :=
  ⟨by rw [consumed_timebase], by rw [consumed_status]⟩

/-- A bad second loses the run and, of an ACTIVE source, the active source (R46, R49). -/
theorem judgeSecond_bad_effect (h : judgementOf x s = .bad) :
    s.Untouched x (judgeSecond x s) ∧
      ((judgeSecond x s).timebase.active = (if (s.monitor x).state = .active then none else s.timebase.active) ∧
        (judgeSecond x s).status.badSeconds.get x = min 65535 (s.status.badSeconds.get x + 1)) ∧
      (judgeSecond x s).monitor x = (s.monitor x).restarted.afterBad := by
  obtain ⟨hactive, hcount⟩ := badSecond_lost x (consumed x s)
  have hmon := badSecond_monitor_same x (consumed x s)
  obtain ⟨hsame, hbad⟩ := consumed_sameSource x s
  rw [consumed_monitor_same] at hactive hmon
  rw [hsame] at hactive
  rw [hbad] at hcount
  rw [judgeSecond_bad h]
  exact ⟨(consumed_untouched x s).trans (badSecond_untouched x _), ⟨hactive, hcount⟩, hmon⟩

/-- A starting second opens a run (R46). -/
theorem judgeSecond_starting_effect (h : judgementOf x s = .starting) (hl : (s.link x).latch = some f) :
    s.Untouched x (judgeSecond x s) ∧ s.SameSource (judgeSecond x s) ∧
      (judgeSecond x s).monitor x =
        { (s.monitor x).restarted with good := 0, last := some (f.count, pulseOffset s.timebase.m) } := by
  rw [judgeSecond_starting h hl]
  refine ⟨(consumed_untouched x s).trans (setMonitor_untouched x _ _), consumed_sameSource x s, ?_⟩
  simp [startingSecond]

theorem credited_effect (x : Link) (f : EpochFrame) (s : State) :
    s.Untouched x (credited x f s) ∧ s.SameSource (credited x f s) :=
  ⟨(consumed_untouched x s).trans (setMonitor_untouched x _ _), consumed_sameSource x s⟩

/-- A stray pulse of an ACTIVE source counts, and no other does (R44). -/
theorem judgeSecond_strays (x : Link) (s : State) :
    (judgeSecond x s).status.strayPulses.get x =
        (if (s.monitor x).state = .active ∧ s.timebase.settings.window < (pulseOffset s.timebase.m).natAbs then
          min 65535 (s.status.strayPulses.get x + 1)
        else s.status.strayPulses.get x) ∧
      (judgeSecond x s).status.strayPulses.get x.other = s.status.strayPulses.get x.other ∧
      (judgeSecond x s).status.framesDiscarded = s.status.framesDiscarded := by
  obtain ⟨hstray, hframes⟩ := judgeSecond_pulses x s
  rw [hstray, hframes, consumed_status, ← countUp_eq]
  dsimp only
  split
  · exact ⟨PerLink.get_set_same _ _ _, PerLink.get_set_other _ _ _, rfl⟩
  · exact ⟨rfl, rfl, rfl⟩

theorem takeMissing_of_due (h : (s.monitor x).missDue = true) :
    takeMissing x s =
      badSecond x (s.setMonitor x { s.monitor x with missDue := false, missed := (s.monitor x).missed + 1 }) := if_pos h

end

/-- Settles O43: a pulse consumes its frame, and its judgement changes its source alone. -/
theorem pulsesJudgeTheirSource : Obligations.PulsesJudgeTheirSource := by
  intro x s hd mon untouched lost
  have intact {t : State} (h : s.Untouched x t) : untouched t :=
    ⟨h.m, h.count, h.timeScale, h.assembler, h.keying, h.carrier, h.leaps, h.monitor⟩
  refine ⟨fun i hon hp hw => ?pulse, fun hm => ?missing⟩
  case pulse =>
    intro e judged out
    obtain ⟨unit, hexec⟩ := execPulse_judged hon hd hp hw
    have hlink := judgeSecond_link x (s.withLineUnit unit)
    obtain ⟨hsame, hother⟩ := consumed_link x (s.withLineUnit unit)
    obtain ⟨hstray, hstray', hframes⟩ := judgeSecond_strays x (s.withLineUnit unit)
    have hunit := withLineUnit_untouched x unit s
    have latched (h : judged ≠ .bad) : ∃ f, (s.link x).latch = some f := latch_of_not_bad h
    refine ⟨_, hexec, (hlink x).trans hsame, (hlink _).trans hother, hframes, hstray, hstray', fun hj => ?bad,
      fun hj => ?starting, fun hj hm hn => ?short, fun hj hm hn ha => ?reached⟩
    case bad =>
      obtain ⟨hkept, hlost, hmon⟩ := judgeSecond_bad_effect (x := x) (s := s.withLineUnit unit) hj
      exact ⟨intact (hunit.trans hkept), hlost, hmon.trans (afterBad_of_not_down hd)⟩
    case starting =>
      obtain ⟨f, hl⟩ := latched (by simp [hj])
      obtain ⟨hkept, ⟨hactive, hcount⟩, hmon⟩ := judgeSecond_starting_effect (s := s.withLineUnit unit) hj hl
      exact ⟨intact (hunit.trans hkept), hactive, hcount, f, hl, hmon⟩
    case short =>
      obtain ⟨f, hl⟩ := latched (by simp [hj])
      obtain ⟨hkept, hactive, hcount⟩ := credited_effect x f (s.withLineUnit unit)
      rw [judgeSecond_short (s := s.withLineUnit unit) hj hl hm hn]
      exact ⟨intact (hunit.trans hkept), hactive, hcount, f, hl, (credited_monitor_same x f _).trans (afterGood_short hm hn)⟩
    case reached =>
      obtain ⟨f, hl⟩ := latched (by simp [hj])
      exact judgeSecond_reached (s := s.withLineUnit unit) hj hl hm hn ha
  case missing =>
    obtain ⟨hactive, hcount⟩ := badSecond_lost x
      (s.setMonitor x { s.monitor x with missDue := false, missed := (s.monitor x).missed + 1 })
    have hbad := badSecond_monitor_same x
      (s.setMonitor x { s.monitor x with missDue := false, missed := (s.monitor x).missed + 1 })
    rw [State.monitor_setMonitor_same] at hactive hbad
    refine ⟨_, congrArg Host.Outcome.next (takeMissing_of_due hm),
      intact ((setMonitor_untouched x _ s).trans (badSecond_untouched x _)), ⟨hactive, hcount⟩, by simp, ?_⟩
    exact hbad.trans (afterBad_of_not_down hd)

end Sys2Proof.Machine

/-! PROOFS. A good pulse of the active source steers the flywheel (O44): re-alignment, boundary and wrap as one pulse makes them. -/

namespace Sys2Proof.Machine

/-! ### What a re-alignment and a boundary leave (R41, R150, R156) -/

/-- The slot of the first state is re-aligned in the second one, without a boundary (R156). -/
structure State.Realigned (s t : State) : Prop where
  m : t.timebase.m = 0
  j : t.keying.j = 0
  latch : t.keying.latch = s.keying.latch
  slotStart : t.keying.keyOut.slotStart = false
  amplitude : t.keying.keyOut.amplitude = s.keying.stepAmp.getD (sampleAmplitude s.keying.latch 0)
  timeScale : t.timeScale = s.timeScale
  count : t.timebase.count = s.timebase.count
  assembler : t.assembler = s.assembler

/-- A second boundary at this flywheel position has given the time scale unit this content (R41, R65, R150). -/
structure State.AtBoundary (m : Nat) (unit : TimeScale) (t : State) : Prop where
  m : t.timebase.m = m
  wrapDue : t.timebase.wrapDue = false
  j : t.keying.j = 0
  slotStart : t.keying.keyOut.slotStart = true
  timeScale : t.timeScale = unit
  count : t.timebase.count = unit.label.map (·.count)

section

variable {x : Link} {i : PulseInput} {f : EpochFrame} {s t : State} {e : Int}

theorem secondBoundary_atBoundary (cause : BoundaryCause) (s : State) :
    State.AtBoundary s.timebase.m (labelBoundary s.timeScale s.rules.leaps (carriedCount cause s.timebase)).1
      (secondBoundary cause s) := by
  obtain ⟨hscale, htb, -, hj, hstart, -, -⟩ := secondBoundary_spec cause s
  obtain ⟨hm, hdue, hcount, -⟩ := Timebase.atBoundary_fields s.timebase
    (labelBoundary s.timeScale s.rules.leaps (carriedCount cause s.timebase)).1.label
  rw [← htb] at hm hdue hcount
  exact ⟨hm, hdue, hj, hstart, hscale, hcount⟩

/-- Only the mark of the step's boundary is changed (log 41). -/
def State.withFormed (b : StepBoundary) (s : State) : State := s.withTimebase { s.timebase with formed := b }

theorem State.AtBoundary.withFormed {m : Nat} {unit : TimeScale} (h : State.AtBoundary m unit t) (b : StepBoundary) :
    State.AtBoundary m unit (t.withFormed b) :=
  ⟨h.m, h.wrapDue, h.j, h.slotStart, h.timeScale, h.count⟩

/-- The run's last pulse stays through a boundary (R46, R58). -/
theorem secondBoundary_monitor_last (cause : BoundaryCause) (s : State) (x : Link) :
    ((secondBoundary cause s).monitor x).last = (s.monitor x).last := by
  rw [secondBoundary_monitor, Monitor.afterSpanExit_eq]
  split
  · rfl
  · rfl

/-! ### The pulse of a wrap's step (R42) -/

theorem pulseSource_of_pulseOn (h : PulseOn x i s) (hd : (s.monitor x).state ≠ .down) : pulseSource i s = some x := by
  rcases h with ⟨rfl, rfl⟩ | ⟨rfl, rfl, hrouted⟩ | ⟨rfl, rfl, hpulse⟩
  · simp [pulseSource, hd]
  · simp [pulseSource, hd, hrouted]
  · simp [pulseSource, hd, hpulse]

/-- No pulse is at hand on L6 (R184). -/
def State.NoPulseOnL6 (s : State) : Prop :=
  s.lineUnit.l6Pulse = false ∧ (routedL6 s = true → (s.line .l6).filterDue = false)

theorem State.NoPulseOnL6.congr (h : s.NoPulseOnL6) (hl : t.lineUnit.lines = s.lineUnit.lines)
    (hp : t.lineUnit.l6Pulse = s.lineUnit.l6Pulse) : t.NoPulseOnL6 := by
  have hline : t.line .l6 = s.line .l6 := congrArg (PerLine.get · .l6) hl
  refine ⟨hp.trans h.1, fun hr => ?_⟩
  rw [hline]
  exact h.2 ((routedL6_congr (congrArg LineState.enables hline)) ▸ hr)

theorem State.NoPulseOnL6.secondBoundary (h : s.NoPulseOnL6) (cause : BoundaryCause) :
    (secondBoundary cause s).NoPulseOnL6 := by
  obtain ⟨-, -, -, -, -, -, hunit⟩ := secondBoundary_spec cause s
  exact h.congr (by rw [hunit]; rfl) (by rw [hunit]; rfl)

theorem formWrap_of_noPulse (h : s.NoPulseOnL6) : formWrap s = sealStep (takeWrap s) := formWrap_alone h.1 h.2

/-! ### Steering (R48) -/

theorem steer_late (h : 0 < e) : steer x e s = realign (setPhase x s) := by
  rw [steer, if_neg (by omega), if_neg (by omega)]

theorem steer_onTime : steer x 0 s = s := rfl

theorem steer_early (h : e < 0) : steer x e s = secondBoundary .advance (setPhase x s) := if_pos h

/-- A late pulse sets m and j back to 0 without a boundary (R48, R156). -/
theorem realign_setPhase (x : Link) (s : State) : s.Realigned (realign (setPhase x s)) :=
  ⟨rfl, rfl, rfl, rfl, rfl, rfl, rfl, rfl⟩

theorem carriedCount_congr {tb tb' : Timebase} (h : tb'.count = tb.count) (cause : BoundaryCause) :
    carriedCount cause tb' = carriedCount cause tb := by
  cases cause with
  | advance => rw [carriedCount, h]; rfl
  | adopted c mark => rfl

/-! ### A good pulse, counted (R46) -/

/-- The second state is the first one with a good second of the source counted and nothing else come of it. -/
structure State.Credited (x : Link) (f : EpochFrame) (s u : State) : Prop where
  timebase : u.timebase =
    { s.timebase with
      monitors := s.timebase.monitors.set x
        ((s.monitor x).restarted.afterGood s.timebase.settings.qualify f (pulseOffset s.timebase.m)) }
  timeScale : u.timeScale = s.timeScale
  assembler : u.assembler = s.assembler
  keying : u.keying = s.keying
  leaps : u.rules.leaps = s.rules.leaps
  timeSteps : u.status.timeSteps = s.status.timeSteps
  sourceDisagree : u.status.sourceDisagree = s.status.sourceDisagree

/-- What comes of a good second once it is counted (R46, R48, R50, R55). -/
def creditOutcome (x : Link) (f : EpochFrame) (e : Int) (u : State) : State :=
  if (u.monitor x).state = .active then steer x e u
  else if (u.monitor x).state = .qualified then
    if u.timebase.active = none then adopt x f e u else revertiveTest x f e u
  else u

theorem credited_credits (x : Link) (f : EpochFrame) (s : State) (unit : LineUnit) :
    s.Credited x f (credited x f (s.withLineUnit unit)) := by
  obtain ⟨hscale, hassembler, hkeying, -, -, hleaps, hstatus, -⟩ := credited_frame x f (s.withLineUnit unit)
  rw [consumed_status] at hstatus
  exact ⟨credited_timebase x f _, hscale, hassembler, hkeying, hleaps, by rw [hstatus]; rfl,
    by rw [hstatus]; rfl⟩

theorem judgeSecond_creditOutcome (h : judgementOf x s = .good) (hl : (s.link x).latch = some f) :
    judgeSecond x s = creditOutcome x f (pulseOffset s.timebase.m) (credited x f s) := by
  have hstate : ((credited x f s).monitor x).state = .active ↔ (s.monitor x).state = .active := by
    rw [credited_monitor_same]
    exact (Monitor.afterGood_state _ _ _ _).2
  have hactive : (credited x f s).timebase.active = s.timebase.active := by rw [credited_timebase]
  rw [judgeSecond_good_eq h hl, creditOutcome, hactive]
  simp only [hstate]

/-- A good pulse outside a wrap, and at the wrap of its keying step (R42). -/
theorem execPulse_good (hon : PulseOn x i s) (hp : pulseWaits s = false) (hd : (s.monitor x).state ≠ .down)
    (hl : (s.link x).latch = some f) (h : judgementOf x s = .good) :
    ∃ u, s.Credited x f u ∧ (AloneInStep i s → u.NoPulseOnL6) ∧
      exec (.pulse ⟨i, none⟩) s =
        .next (if s.timebase.wrapDue = true then formWrap (creditOutcome x f (pulseOffset s.timebase.m) u)
          else creditOutcome x f (pulseOffset s.timebase.m) u) := by
  obtain ⟨unit, hlines, hpulse, hedge⟩ := takeEdge_of_pulseOn hon
  have hjudged : takeEdge i s = creditOutcome x f (pulseOffset s.timebase.m) (credited x f (s.withLineUnit unit)) :=
    (hedge.trans (takePulse_of_judged hd hp)).trans (judgeSecond_creditOutcome (s := s.withLineUnit unit) h hl)
  have hunit : (credited x f (s.withLineUnit unit)).lineUnit = unit := (credited_frame x f _).2.2.2.2.1
  refine ⟨_, credited_credits x f s unit, fun ha => ?_, ?_⟩
  · have hroute : (s.withLineUnit unit).line .l6 = s.line .l6 := congrArg (PerLine.get · .l6) hlines
    have hfree : (s.withLineUnit unit).NoPulseOnL6 := by
      refine ⟨hpulse ha.1, fun hr => ?_⟩
      rw [hroute]
      exact ha.2 (routedL6_congr (congrArg LineState.enables hroute) ▸ hr)
    exact hfree.congr (by rw [hunit]; rfl) (by rw [hunit]; rfl)
  · rw [← hjudged]
    split
    · next hw =>
      have hsource : (pulseSource i s).isSome = true := by rw [pulseSource_of_pulseOn hon hd]; rfl
      exact execPulse_at_wrap i hw hsource
    · next hw => exact execPulse_no_wrap ⟨i, none⟩ (by simpa using hw)

variable {u v : State}

theorem State.Credited.monitor (h : s.Credited x f u) :
    u.monitor x = (s.monitor x).restarted.afterGood s.timebase.settings.qualify f (pulseOffset s.timebase.m) := by
  rw [State.monitor, h.timebase, PerLink.get_set_same]

theorem State.Credited.monitor_other (h : s.Credited x f u) : u.monitor x.other = s.monitor x.other := by
  rw [State.monitor, h.timebase, PerLink.get_set_other]
  rfl

theorem State.Credited.count (h : s.Credited x f u) : u.timebase.count = s.timebase.count := by rw [h.timebase]

theorem State.Credited.m (h : s.Credited x f u) : u.timebase.m = s.timebase.m := by rw [h.timebase]

theorem State.Credited.wrapDue (h : s.Credited x f u) : u.timebase.wrapDue = s.timebase.wrapDue := by rw [h.timebase]

theorem State.Credited.active (h : s.Credited x f u) : u.timebase.active = s.timebase.active := by rw [h.timebase]

/-- The run's last pulse is this one (R46). -/
theorem State.Credited.last (h : s.Credited x f u) : (u.monitor x).last = some (f.count, pulseOffset s.timebase.m) := by
  rw [h.monitor]
  rfl

/-- Once the pulse has set the phase, its offset is 0 (R46). -/
theorem State.Credited.last_setPhase (h : s.Credited x f u) : ((setPhase x u).monitor x).last = some (f.count, 0) := by
  rw [setPhase_monitor_same, h.last]
  rfl

/-! ### A pulse leaves the time to the boundary it makes -/

/-- The second state has the first one's flywheel count, time scale, words, keying and leap list. -/
structure State.SameTime (s t : State) : Prop where
  count : t.timebase.count = s.timebase.count
  timeScale : t.timeScale = s.timeScale
  leaps : t.rules.leaps = s.rules.leaps
  keying : t.keying = s.keying
  assembler : t.assembler = s.assembler

theorem State.Credited.sameTime (h : s.Credited x f u) : s.SameTime u :=
  ⟨h.count, h.timeScale, h.leaps, h.keying, h.assembler⟩

theorem State.SameTime.setPhase (h : s.SameTime v) (x : Link) : s.SameTime (Machine.setPhase x v) :=
  ⟨h.count, h.timeScale, h.leaps, h.keying, h.assembler⟩

theorem State.SameTime.boundary (h : s.SameTime v) {cause : BoundaryCause} {carried : Option (Nat × Mark)}
    (hc : carriedCount cause s.timebase = carried) :
    State.AtBoundary v.timebase.m (labelBoundary s.timeScale s.rules.leaps carried).1 (secondBoundary cause v) := by
  rw [← hc, ← carriedCount_congr h.count, ← h.timeScale, ← h.leaps]
  exact secondBoundary_atBoundary cause v

theorem State.SameTime.realigned (h : s.SameTime v) (x : Link) : s.Realigned (realign (Machine.setPhase x v)) := by
  obtain ⟨hm, hj, hlatch, hstart, hamplitude, hscale, hcount, hassembler⟩ := realign_setPhase x v
  rw [h.keying] at hlatch hamplitude
  exact ⟨hm, hj, hlatch, hstart, hamplitude, hscale.trans h.timeScale, hcount.trans h.count,
    hassembler.trans h.assembler⟩

end

/-- Settles O44: the pulse of an ACTIVE source is counted and then steers. -/
theorem activePulsesSteer : Obligations.ActivePulsesSteer := by
  intro x i f s hon hp hactive hl e hj boundary
  obtain ⟨u, hu, halone, hexec⟩ := execPulse_good hon hp (by simp [hactive]) hl hj
  have hsteer : creditOutcome x f (pulseOffset s.timebase.m) u = steer x e u := by
    refine if_pos ?_
    rw [hu.monitor]
    exact (Monitor.afterGood_state _ _ _ _).2.2 hactive
  rw [hsteer] at hexec
  refine ⟨_, hexec, fun he hw => ?late, fun he hw ha => ?wrap, fun he hw => ?onTime, fun he hw => ?early⟩
  case late =>
    rw [if_neg (by simp [hw]), steer_late he]
    have h := hu.sameTime.realigned x
    exact ⟨h.m, h.j, h.latch, h.slotStart, h.amplitude, h.timeScale, h.count, h.assembler, hu.active, hu.last_setPhase⟩
  case wrap =>
    have hlast : (u.monitor x).last = some (f.count, e) := hu.last
    rw [he] at hlast
    have h : State.AtBoundary u.timebase.m boundary (secondBoundary .advance u) := hu.sameTime.boundary rfl
    rw [if_pos hw, he, steer_onTime, formWrap_of_noPulse (halone ha), takeWrap, if_pos (hu.wrapDue.trans hw)]
    exact ⟨h.m.trans hu.m, h.wrapDue, h.j, h.slotStart, h.timeScale, h.count,
      (secondBoundary_monitor_last _ _ _).trans hlast⟩
  case onTime =>
    have hlast : (u.monitor x).last = some (f.count, e) := hu.last
    rw [he] at hlast
    rw [if_neg (by simp [hw]), he, steer_onTime]
    exact ⟨hu.m, hu.keying, hu.timeScale, hu.assembler, hlast⟩
  case early =>
    have h : State.AtBoundary 0 boundary (secondBoundary .advance (setPhase x u)) :=
      (hu.sameTime.setPhase x).boundary rfl
    rw [if_neg (by simp [hw]), steer_early he]
    exact ⟨h.m, h.wrapDue, h.j, h.slotStart, h.timeScale, h.count,
      (secondBoundary_monitor_last _ _ _).trans hu.last_setPhase⟩

end Sys2Proof.Machine

/-! PROOFS. Adoption, time step and revertive switch (O45): what becomes of the source that a good pulse makes the active one. -/

namespace Sys2Proof.Machine

section

variable {x : Link} {f : EpochFrame} {s t u v : State} {e : Int}

/-! ### The label of an adoption's boundary (R52, R53) -/

/-- The label of a boundary that carries a count keeps it, and a mark that it carries too (R52, R53). -/
theorem labelBoundary_carried {unit : TimeScale} {leaps : List LeapEntry} {c : Nat} {mark : Mark} {lab : Label}
    (h : (labelBoundary unit leaps (some (c, mark))).1.label = some lab) :
    lab.count = c ∧ (mark ≠ .none → lab.mark = mark) := by
  obtain ⟨hcount, hmark⟩ := labelOf_count h
  refine ⟨hcount, fun hm => ?_⟩
  rw [hmark]
  simp [hm]

/-- An adoption's boundary with the mark STEP drops the words (R53, R129). -/
theorem secondBoundary_step_words (c : Nat) (s : State) :
    (secondBoundary (.adopted c .step) s).assembler.current = none ∧
      (secondBoundary (.adopted c .step) s).assembler.pendingWord = none := by
  cases hl : beginningLabel (.adopted c .step) s with
  | none =>
    obtain ⟨hc, hp, -⟩ := secondBoundary_without_label _ hl
    exact ⟨hc, hp⟩
  | some lab =>
    refine secondBoundary_marked _ hl ?_
    rw [(labelBoundary_carried hl).2 (by decide)]
    decide

/-! ### The active source after an adoption or a switch (R50, R55) -/

/-- This source is the active one, and holdover is over (R50). -/
structure State.Adopted (x : Link) (t : State) : Prop where
  active : t.timebase.active = some x
  state : (t.monitor x).state = .active
  holdover : t.timebase.holdover = 0

/-- While time is valid the source is the active one, and the other source has yielded (R50, R55, R58). -/
structure State.Switched (x : Link) (s t : State) : Prop where
  adopted : t.timebase.count.isSome = true → t.Adopted x
  other : t.monitor x.other = (s.monitor x.other).yielded

theorem activate_adopted (x : Link) (s : State) : (activate x s).Adopted x :=
  ⟨by rw [activate_timebase], by rw [activate_monitor_same], by rw [activate_timebase]⟩

theorem activate_switched (x : Link) (s : State) : s.Switched x (activate x s) :=
  ⟨fun _ => activate_adopted x s, activate_monitor_other x s⟩

theorem State.Adopted.setPhase (h : t.Adopted x) : (setPhase x t).Adopted x :=
  ⟨h.active, by rw [setPhase_monitor_same]; exact h.state, h.holdover⟩

/-- Steering sets the phase of a source without a change to who is active. -/
theorem activate_setPhase_switched (x : Link) (s : State) : s.Switched x (setPhase x (activate x s)) :=
  ⟨fun _ => (activate_adopted x s).setPhase, (setPhase_monitor_other x _).trans (activate_monitor_other x s)⟩

theorem Monitor.afterSpanExit_yielded (mon : Monitor) : mon.yielded.afterSpanExit = mon.yielded := by
  unfold Monitor.yielded
  split
  · rfl
  · next h => exact if_neg h

/-- A boundary leaves the switch as it is, unless its second is out of the span (R58). -/
theorem State.Switched.secondBoundary (h : s.Switched x t) (ht : t.Adopted x) (cause : BoundaryCause) :
    s.Switched x (secondBoundary cause t) := by
  have htb := secondBoundary_timebase cause t
  have hmon := secondBoundary_monitor cause t
  cases hl : beginningLabel cause t with
  | none =>
    rw [hl] at htb hmon
    refine ⟨fun hc => ?_, ?_⟩
    · rw [htb] at hc
      cases hc
    · rw [hmon, h.other]
      exact Monitor.afterSpanExit_yielded _
  | some lab =>
    rw [hl] at htb hmon
    refine ⟨fun _ => ⟨?_, ?_, ?_⟩, ?_⟩
    · rw [htb]
      exact ht.active
    · rw [hmon]
      exact ht.state
    · rw [htb]
      simp [Timebase.atBoundary, ht.active, ht.holdover]
    · rw [hmon]
      exact h.other

theorem State.Switched.of_timebase (h : s.Switched x t) (htb : u.timebase = t.timebase) : s.Switched x u := by
  obtain ⟨hadopted, hother⟩ := h
  refine ⟨fun hc => ?_, ?_⟩
  · rw [htb] at hc
    obtain ⟨ha, hs, hh⟩ := hadopted hc
    exact ⟨by rw [htb]; exact ha, by rw [State.monitor, htb]; exact hs, by rw [htb]; exact hh⟩
  · rw [State.monitor, htb]
    exact hother

theorem State.Switched.withFormed (h : s.Switched x t) (b : StepBoundary) : s.Switched x (t.withFormed b) :=
  ⟨fun hc => ⟨(h.adopted hc).active, (h.adopted hc).state, (h.adopted hc).holdover⟩, h.other⟩

/-- The wrap of a keying step in which a pulse has made the boundary makes no other (R152). -/
theorem formWrap_of_boundary (cause : BoundaryCause) (h : v.NoPulseOnL6) :
    formWrap (secondBoundary cause v) = (secondBoundary cause v).withFormed .atWrap := by
  rw [formWrap_of_noPulse (h.secondBoundary cause), takeWrap_of_not_due (secondBoundary_atBoundary cause v).wrapDue]
  rfl

/-- A pulse's boundary is the only one of its keying step, whether its wrap is due or not (R152). -/
theorem boundary_of_step (cause : BoundaryCause) (h : s.timebase.wrapDue = true → v.NoPulseOnL6) :
    ∃ b, (if s.timebase.wrapDue = true then formWrap (secondBoundary cause v) else secondBoundary cause v) =
      (secondBoundary cause v).withFormed b := by
  split
  · next hw => exact ⟨_, formWrap_of_boundary cause (h hw)⟩
  · exact ⟨(secondBoundary cause v).timebase.formed, rfl⟩

/-! ### Agreement with the flywheel (R51) -/

theorem agrees_iff (hu : s.Credited x f u) :
    agrees u f e = true ↔ e.natAbs ≤ s.timebase.settings.window ∧ ∃ c, s.timebase.count = some c ∧
      f.count = if 0 < e ∨ (e = 0 ∧ s.timebase.wrapDue = false) then c else c + 1 := by
  have hsettings : u.timebase.settings = s.timebase.settings := by rw [hu.timebase]
  unfold agrees expectedCount
  rw [hsettings, hu.count, hu.wrapDue, Bool.and_eq_true, decide_eq_true_iff]
  refine and_congr_right fun _ => ?_
  cases s.timebase.count with
  | none => simp
  | some c =>
    have hcount : (if 0 < e then c else if e = 0 then if s.timebase.wrapDue = true then c + 1 else c else c + 1) =
        if 0 < e ∨ (e = 0 ∧ s.timebase.wrapDue = false) then c else c + 1 := by
      by_cases hpos : 0 < e
      · simp [hpos]
      · cases s.timebase.wrapDue <;> simp [hpos]
    simp [hcount]

/-- An agreeing pulse before its boundary, or at its wrap, brings the count that the flywheel carries (R51). -/
theorem carriedCount_of_agrees (hu : s.Credited x f u) (h : agrees u f e = true)
    (he : e < 0 ∨ (e = 0 ∧ s.timebase.wrapDue = true)) :
    carriedCount .advance s.timebase = some (f.count, .none) := by
  obtain ⟨-, c, hc, hf⟩ := (agrees_iff hu).1 h
  have hcoming : ¬(0 < e ∨ (e = 0 ∧ s.timebase.wrapDue = false)) := by
    rintro (hpos | ⟨h0, hw⟩)
    · omega
    · rcases he with hneg | ⟨-, hdue⟩
      · omega
      · rw [hw] at hdue
        cases hdue
  rw [if_neg hcoming] at hf
  rw [carriedCount, hc, hf]
  rfl

/-! ### The source made active, and the boundary it makes -/

theorem State.SameTime.activate (h : s.SameTime u) (x : Link) : s.SameTime (activate x u) := by
  obtain ⟨hcount, hscale, hleaps, hkeying, hassembler⟩ := h
  exact ⟨by rw [activate_timebase]; exact hcount, by simpa using hscale, by simpa using hleaps, by simpa using hkeying,
    by simpa using hassembler⟩

theorem activate_noPulse (h : u.NoPulseOnL6) (x : Link) : (activate x u).NoPulseOnL6 := h.congr (by simp) (by simp)

/-! ### A source that agrees steers as it becomes active (R54, R55) -/

/-- What an agreeing pulse of a source that becomes active does to flywheel, slot and label, and to the source. -/
structure State.Steered (x : Link) (f : EpochFrame) (e : Int) (s t : State) : Prop where
  late : 0 < e → s.timebase.wrapDue = false → s.Realigned t
  boundary : e < 0 ∨ s.timebase.wrapDue = true →
    State.AtBoundary 0 (labelBoundary s.timeScale s.rules.leaps (some (f.count, .none))).1 t
  onTime : e = 0 → s.timebase.wrapDue = false → s.SameTime t ∧ t.timebase.m = s.timebase.m
  timeSteps : t.status.timeSteps = s.status.timeSteps
  switched : s.Switched x t

theorem State.Credited.switched (hu : s.Credited x f u) (h : u.Switched x t) : s.Switched x t :=
  ⟨h.adopted, h.other.trans (by rw [hu.monitor_other])⟩

theorem steered_late (hu : s.Credited x f u) (he : 0 < e) (hw : s.timebase.wrapDue = false) :
    s.Steered x f e (steer x e (activate x u)) := by
  rw [steer_late he]
  exact {
    late := fun _ _ => (hu.sameTime.activate x).realigned x
    boundary := fun h => by simp only [hw, Bool.false_eq_true, or_false] at h; omega
    onTime := fun h => by omega
    timeSteps := by simp [hu.timeSteps]
    switched := (hu.switched (activate_setPhase_switched x u)).of_timebase (by simp) }

theorem steered_onTime (hu : s.Credited x f u) (hw : s.timebase.wrapDue = false) :
    s.Steered x f 0 (steer x 0 (activate x u)) := by
  rw [steer_onTime]
  exact {
    late := fun h => by omega
    boundary := fun h => by rw [hw] at h; simp at h
    onTime := fun _ _ => ⟨hu.sameTime.activate x, by rw [activate_timebase]; exact hu.m⟩
    timeSteps := by simp [hu.timeSteps]
    switched := hu.switched (activate_switched x u) }

theorem steered_early (hu : s.Credited x f u) (he : e < 0) (h : agrees u f e = true) :
    s.Steered x f e (steer x e (activate x u)) := by
  have hcarried := carriedCount_of_agrees hu h (.inl he)
  have hsame := (hu.sameTime.activate x).setPhase x
  have hsteps := (secondBoundary_events (setPhase x (activate x u)) .advance).timeSteps
  rw [steer_early he]
  exact {
    late := fun h => by omega
    boundary := fun _ => hsame.boundary hcarried
    onTime := fun h => by omega
    timeSteps := hsteps.trans (by simp [hu.timeSteps])
    switched := hu.switched ((activate_setPhase_switched x u).secondBoundary (activate_adopted x u).setPhase _) }

/-- At the wrap of its keying step the boundary is the wrap's (R48, R54). -/
theorem steered_wrap (hu : s.Credited x f u) (hw : s.timebase.wrapDue = true) (hm : s.timebase.m = 0)
    (hfree : u.NoPulseOnL6) (h : agrees u f 0 = true) : s.Steered x f 0 (formWrap (steer x 0 (activate x u))) := by
  have hcarried := carriedCount_of_agrees hu h (.inr ⟨rfl, hw⟩)
  have hdue : (activate x u).timebase.wrapDue = true := by rw [activate_timebase]; exact hu.wrapDue.trans hw
  have hzero : (activate x u).timebase.m = 0 := by rw [activate_timebase]; exact hu.m.trans hm
  have hsteps := (secondBoundary_events (activate x u) .advance).timeSteps
  have hb := (hu.sameTime.activate x).boundary hcarried
  rw [hzero] at hb
  rw [steer_onTime, formWrap_of_noPulse (activate_noPulse hfree x), takeWrap, if_pos hdue]
  exact {
    late := fun h => by omega
    boundary := fun _ => hb.withFormed .atWrap
    onTime := fun _ hn => by rw [hw] at hn; cases hn
    timeSteps := hsteps.trans (by simp [hu.timeSteps])
    switched := hu.switched
      (((activate_switched x u).secondBoundary (activate_adopted x u) _).withFormed .atWrap) }

theorem steered_of_agrees (hu : s.Credited x f u) (h : agrees u f (pulseOffset s.timebase.m) = true)
    (hw : s.timebase.wrapDue = true → s.timebase.m = 0 ∧ u.NoPulseOnL6) :
    s.Steered x f (pulseOffset s.timebase.m)
      (if s.timebase.wrapDue = true then formWrap (steer x (pulseOffset s.timebase.m) (activate x u))
        else steer x (pulseOffset s.timebase.m) (activate x u)) := by
  split
  · next hdue =>
    obtain ⟨hm, hfree⟩ := hw hdue
    have h0 : pulseOffset s.timebase.m = 0 := by rw [hm]; rfl
    rw [h0] at h ⊢
    exact steered_wrap hu hdue hm hfree h
  · next hdue =>
    have hnot : s.timebase.wrapDue = false := by simpa using hdue
    rcases lt_trichotomy (pulseOffset s.timebase.m) 0 with hneg | h0 | hpos
    · exact steered_early hu hneg h
    · rw [h0]
      exact steered_onTime hu hnot
    · exact steered_late hu hpos hnot

/-! ### Which of the three an adoption is, and the revertive test (R50 to R55) -/

theorem creditOutcome_of_none (hq : (u.monitor x).state = .qualified) (ha : u.timebase.active = none) :
    creditOutcome x f e u = adopt x f e u := by
  rw [creditOutcome, if_neg (by simp [hq]), if_pos hq, if_pos ha]

theorem creditOutcome_of_some (hq : (u.monitor x).state = .qualified) (ha : u.timebase.active ≠ none) :
    creditOutcome x f e u = revertiveTest x f e u := by
  rw [creditOutcome, if_neg (by simp [hq]), if_pos hq, if_neg ha]

/-- With time absent the adoption is FIRST (R52). -/
theorem adopt_first (hc : u.timebase.count = none) :
    adopt x f e u = secondBoundary (.adopted f.count .first) (setPhase x (activate x u)) := by
  have hv : timeValid u = false := by rw [timeValid, hc]; rfl
  simp [adopt, hv]

/-- A source that agrees steers as it is adopted (R54). -/
theorem adopt_agreeing (h : agrees u f e = true) : adopt x f e u = steer x e (activate x u) := by
  simp [adopt, timeValid_of_agrees h, h]

/-- The state with one more time step (R53). -/
def State.withTimeStep (s : State) : State :=
  s.withStatus { s.status with timeSteps := countUp s.status.timeSteps, timeStep := true }

/-- With time valid a source that does not agree makes a time step (R53). -/
theorem adopt_step (hc : u.timebase.count.isSome = true) (h : ¬ agrees u f e = true) :
    adopt x f e u = secondBoundary (.adopted f.count .step) (setPhase x (activate x u).withTimeStep) := by
  have hv : timeValid u = true := hc
  simp [adopt, hv, h, State.withTimeStep]

theorem revertiveTest_switch (h : agrees u f e = true) (hr : u.timebase.settings.revertive = true)
    (hp : u.timebase.settings.preferred = x) : revertiveTest x f e u = steer x e (activate x u) := by
  simp [revertiveTest, h, hr, hp]

theorem revertiveTest_stays (h : agrees u f e = true)
    (hn : u.timebase.settings.revertive = false ∨ u.timebase.settings.preferred ≠ x) : revertiveTest x f e u = u := by
  have hno : ¬(u.timebase.settings.revertive = true ∧ u.timebase.settings.preferred = x) := by
    rintro ⟨hr, hp⟩
    rcases hn with hf | hne
    · rw [hr] at hf
      cases hf
    · exact hne hp
  simp [revertiveTest, h, hno]

theorem revertiveTest_disagrees (h : ¬ agrees u f e = true) :
    revertiveTest x f e u = u.withStatus { u.status with sourceDisagree := true } := if_neg h

/-- A good second leaves its source QUALIFIED, or makes it so with the last of N (R46). -/
theorem State.Credited.qualified (hu : s.Credited x f u) (h : (s.monitor x).state = .qualified ∨
    ((s.monitor x).state = .hunting ∧ s.timebase.settings.qualify ≤ (s.monitor x).good + 1)) :
    (u.monitor x).state = .qualified := by
  rw [hu.monitor]
  rcases h with hq | ⟨hh, hn⟩
  · simp [Monitor.afterGood, Monitor.restarted, hq]
  · exact congrArg Monitor.state (afterGood_reached (mon := (s.monitor x).restarted) hh hn)

/-- The boundary that a source which does not steer makes as it is adopted (R52, R53). -/
theorem adoption_boundary (hsame : s.SameTime v) (hm : v.timebase.m = 0) (hv : v.Adopted x) (hs : s.Switched x v)
    (hfree : s.timebase.wrapDue = true → v.NoPulseOnL6) (mark : Mark) :
    ∃ b, (if s.timebase.wrapDue = true then formWrap (secondBoundary (.adopted f.count mark) v)
        else secondBoundary (.adopted f.count mark) v) = (secondBoundary (.adopted f.count mark) v).withFormed b ∧
      State.AtBoundary 0 (labelBoundary s.timeScale s.rules.leaps (some (f.count, mark))).1
        ((secondBoundary (.adopted f.count mark) v).withFormed b) ∧
      ((labelBoundary s.timeScale s.rules.leaps (some (f.count, mark))).1.label.isSome = true →
        ((secondBoundary (.adopted f.count mark) v).withFormed b).timebase.count = some f.count ∧
          ((secondBoundary (.adopted f.count mark) v).withFormed b).Adopted x) := by
  obtain ⟨b, hb⟩ := boundary_of_step (.adopted f.count mark) hfree
  have hcarried : carriedCount (.adopted f.count mark) s.timebase = some (f.count, mark) := rfl
  have hat := (hsame.boundary hcarried).withFormed b
  rw [hm] at hat
  refine ⟨b, hb, hat, fun hlabel => ?_⟩
  obtain ⟨lab, hlab⟩ := Option.isSome_iff_exists.1 hlabel
  have hcount := hat.count
  rw [hlab, Option.map_some, (labelBoundary_carried hlab).1] at hcount
  exact ⟨hcount, ((hs.secondBoundary hv _).withFormed b).adopted (by rw [hcount]; rfl)⟩

end

/-- Settles O45: the pulse is counted; with no source active its source is adopted, and with the other one active it switches,
is left as it is, or disagrees. -/
theorem sourcesAreAdopted : Obligations.SourcesAreAdopted := by
  intro x i f s hon hp hl hwrap mon e agree stamped adopted boundary realigned untouched steered hj hstate
  have hd : (s.monitor x).state ≠ .down := fun h => by simp [mon, h] at hstate
  obtain ⟨u, hu, halone, hexec⟩ := execPulse_good hon hp hd hl hj
  have hq := hu.qualified hstate
  have hagree : agrees u f e = true ↔ agree := agrees_iff hu
  have hfree (hw : s.timebase.wrapDue = true) : u.NoPulseOnL6 := halone (hwrap hw).2
  have asAdopted {t : State} (h : t.Adopted x) : adopted t := ⟨h.active, h.state, h.holdover⟩
  have asBoundary {unit : TimeScale} {t : State} (h : State.AtBoundary 0 unit t) : boundary unit t :=
    ⟨h.m, h.wrapDue, h.j, h.slotStart, h.timeScale, h.count⟩
  have asUntouched {t : State} (h : s.SameTime t) (hm : t.timebase.m = s.timebase.m) : untouched t :=
    ⟨hm, h.timeScale, h.count, h.keying, h.assembler⟩
  have asSteered {t : State} (h : s.Steered x f e t) : steered t := by
    refine ⟨fun he hw => ?_, fun he => asBoundary (h.boundary he), fun he hw => ?_⟩
    · obtain ⟨hm, hj, hlatch, hstart, -, hscale, hcount, hassembler⟩ := h.late he hw
      exact ⟨hm, hj, hlatch, hstart, hscale, hcount, hassembler⟩
    · obtain ⟨hsame, hm⟩ := h.onTime he hw
      exact asUntouched hsame hm
  have hsteered (h : agree) := steered_of_agrees hu (hagree.2 h) fun hw => ⟨(hwrap hw).1, hfree hw⟩
  refine ⟨_, hexec, fun ha ho => ?adopt, fun ha ho => ?switch⟩
  case adopt =>
    have hsame := hu.sameTime.activate x
    have hswitched := hu.switched (activate_setPhase_switched x u)
    have hadopted := (activate_adopted x u).setPhase
    rw [creditOutcome_of_none hq (hu.active.trans ha)]
    refine ⟨fun hc => ?first, fun hc hn => ?step, fun h => ?agreeing⟩
    case first =>
      obtain ⟨b, hb, hat, hlabel⟩ := adoption_boundary (f := f) (v := setPhase x (activate x u))
        (hsame.setPhase x) rfl hadopted hswitched
        (fun hw => activate_noPulse (hfree hw) x) .first
      have hsteps := (secondBoundary_events (setPhase x (activate x u)) (.adopted f.count .first)).timeSteps
      rw [adopt_first (hu.count.trans hc), hb]
      exact ⟨asBoundary hat, hsteps.trans (by simp [hu.timeSteps]), fun h => ⟨(hlabel h).1, asAdopted (hlabel h).2⟩⟩
    case step =>
      obtain ⟨b, hb, hat, hlabel⟩ := adoption_boundary (f := f) (v := setPhase x (activate x u).withTimeStep)
        ⟨hsame.count, hsame.timeScale, hsame.leaps, hsame.keying, hsame.assembler⟩ rfl
        ⟨hadopted.active, hadopted.state, hadopted.holdover⟩ (hswitched.of_timebase rfl)
        (fun hw => activate_noPulse (hfree hw) x) .step
      have hevents := secondBoundary_events (setPhase x (activate x u).withTimeStep) (.adopted f.count .step)
      have hcounted : (setPhase x (activate x u).withTimeStep).status.timeSteps = min 65535 (s.status.timeSteps + 1) := by
        rw [← countUp_eq, ← hu.timeSteps]
        simp [State.withTimeStep]
      obtain ⟨hcurrent, hpending⟩ := secondBoundary_step_words f.count (setPhase x (activate x u).withTimeStep)
      rw [adopt_step (by rw [hu.count]; exact hc) (mt hagree.1 hn), hb]
      exact ⟨asBoundary hat, hevents.timeSteps.trans hcounted, hevents.timeStep, hcurrent, hpending,
        fun h => ⟨(hlabel h).1, asAdopted (hlabel h).2⟩⟩
    case agreeing =>
      rw [adopt_agreeing (hagree.2 h)]
      exact ⟨asSteered (hsteered h), (hsteered h).timeSteps, fun hc => asAdopted ((hsteered h).switched.adopted hc)⟩
  case switch =>
    have hsettings : u.timebase.settings = s.timebase.settings := by rw [hu.timebase]
    rw [creditOutcome_of_some hq (by rw [hu.active, ha]; simp)]
    refine ⟨fun h hr hpref => ?revert, fun h hn hw => ?stay, fun hn hw => ?disagree⟩
    case revert =>
      have hother := (hsteered h).switched.other
      rw [Monitor.yielded, if_pos ho] at hother
      rw [revertiveTest_switch (hagree.2 h) (by rw [hsettings]; exact hr) (by rw [hsettings]; exact hpref)]
      exact ⟨asSteered (hsteered h), (hsteered h).timeSteps, fun hc => ⟨((hsteered h).switched.adopted hc).active,
        ((hsteered h).switched.adopted hc).state⟩, hother⟩
    case stay =>
      rw [if_neg (by simp [hw]), revertiveTest_stays (hagree.2 h) (by rw [hsettings]; exact hn)]
      exact ⟨asUntouched hu.sameTime hu.m, hu.active, hq, hu.monitor_other, hu.sourceDisagree⟩
    case disagree =>
      rw [if_neg (by simp [hw]), revertiveTest_disagrees (mt hagree.1 hn)]
      exact ⟨⟨hu.m, hu.timeScale, hu.count, hu.keying, hu.assembler⟩, rfl, hu.active, hq, hu.monitor_other⟩

end Sys2Proof.Machine

/-! PROOFS. The events of the lines and of the pulse inputs (O49): a filter change, a pulse on L6, a pulse that waits, the end of a
strobe. -/

namespace Sys2Proof.Machine

section

variable {x : Link} {i : PulseInput} {f : EpochFrame} {s t u : State} {e : Int}

/-! ### What a pulse leaves of the lines and of the other source's waiting pulse (R42, R184) -/

/-- The lines, the pulse on L6 and the other source's waiting pulse are the same. -/
structure State.PulseFrame (x : Link) (s t : State) : Prop where
  lines : t.lineUnit.lines = s.lineUnit.lines
  l6Pulse : t.lineUnit.l6Pulse = s.lineUnit.l6Pulse
  waiting : (t.monitor x.other).waiting = (s.monitor x.other).waiting

theorem State.PulseFrame.refl (x : Link) (s : State) : s.PulseFrame x s := ⟨rfl, rfl, rfl⟩

theorem State.PulseFrame.trans (h1 : s.PulseFrame x t) (h2 : t.PulseFrame x u) : s.PulseFrame x u :=
  ⟨h2.lines.trans h1.lines, h2.l6Pulse.trans h1.l6Pulse, h2.waiting.trans h1.waiting⟩

theorem State.PulseFrame.of_unit (hl : t.lineUnit = s.lineUnit)
    (hm : (t.monitor x.other).waiting = (s.monitor x.other).waiting) : s.PulseFrame x t :=
  ⟨by rw [hl], by rw [hl], hm⟩

theorem State.Untouched.pulseFrame (h : s.Untouched x t) (hl : t.lineUnit = s.lineUnit) : s.PulseFrame x t :=
  .of_unit hl (by rw [h.monitor])

theorem secondBoundary_pulseFrame (x : Link) (cause : BoundaryCause) (s : State) :
    s.PulseFrame x (secondBoundary cause s) := by
  obtain ⟨-, -, -, -, -, -, hunit⟩ := secondBoundary_spec cause s
  refine ⟨by rw [hunit]; rfl, by rw [hunit]; rfl, ?_⟩
  rw [secondBoundary_monitor, Monitor.afterSpanExit_eq]
  split
  · rfl
  · rfl

theorem setPhase_pulseFrame (x : Link) (s : State) : s.PulseFrame x (setPhase x s) :=
  .of_unit rfl (by rw [setPhase_monitor_other])

theorem activate_pulseFrame (x : Link) (s : State) : s.PulseFrame x (activate x s) := by
  refine .of_unit (by simp) ?_
  rw [activate_monitor_other, Monitor.yielded]
  split
  · rfl
  · rfl

theorem steer_pulseFrame (x : Link) (e : Int) (s : State) : s.PulseFrame x (steer x e s) := by
  unfold steer
  split
  · exact (setPhase_pulseFrame x s).trans (secondBoundary_pulseFrame x _ _)
  · split
    · exact .refl x s
    · exact (setPhase_pulseFrame x s).trans (.of_unit (by simp) (by simp))

theorem steer_activate_pulseFrame (x : Link) (e : Int) (s : State) : s.PulseFrame x (steer x e (activate x s)) :=
  (activate_pulseFrame x s).trans (steer_pulseFrame x e _)

theorem adopt_pulseFrame (x : Link) (f : EpochFrame) (e : Int) (s : State) : s.PulseFrame x (adopt x f e s) := by
  have marked (c : BoundaryCause) {u : State} (h : s.PulseFrame x u) :
      s.PulseFrame x (secondBoundary c (setPhase x u)) :=
    (h.trans (setPhase_pulseFrame x u)).trans (secondBoundary_pulseFrame x c _)
  obtain ⟨hlines, hpulse, hwaiting⟩ := activate_pulseFrame x s
  unfold adopt
  dsimp only
  split
  · exact marked _ ⟨hlines, hpulse, hwaiting⟩
  · split
    · exact steer_activate_pulseFrame x e s
    · exact marked _ ⟨hlines, hpulse, hwaiting⟩

theorem revertiveTest_pulseFrame (x : Link) (f : EpochFrame) (e : Int) (s : State) :
    s.PulseFrame x (revertiveTest x f e s) := by
  unfold revertiveTest
  split
  · split
    · exact steer_activate_pulseFrame x e s
    · exact .refl x s
  · exact .of_unit rfl rfl

theorem creditOutcome_pulseFrame (x : Link) (f : EpochFrame) (e : Int) (s : State) :
    s.PulseFrame x (creditOutcome x f e s) := by
  unfold creditOutcome
  split
  · exact steer_pulseFrame x e s
  · split
    · split
      · exact adopt_pulseFrame x f e s
      · exact revertiveTest_pulseFrame x f e s
    · exact .refl x s

theorem judgeSecond_pulseFrame (x : Link) (s : State) : s.PulseFrame x (judgeSecond x s) := by
  have hconsumed : (consumed x s).lineUnit = s.lineUnit := by simp
  by_cases hbad : judgementOf x s = .bad
  · rw [judgeSecond_bad hbad]
    exact ((consumed_untouched x s).trans (badSecond_untouched x _)).pulseFrame (by simp)
  · obtain ⟨f, hl⟩ := latch_of_not_bad hbad
    cases hj : judgementOf x s with
    | bad => exact absurd hj hbad
    | starting =>
      rw [judgeSecond_starting hj hl]
      exact ((consumed_untouched x s).trans (setMonitor_untouched x _ _)).pulseFrame (by simp)
    | good =>
      rw [judgeSecond_creditOutcome hj hl]
      exact ((credited_effect x f s).1.pulseFrame (by simp)).trans (creditOutcome_pulseFrame x f _ _)

theorem takePulse_pulseFrame (x : Link) (s : State) : s.PulseFrame x (takePulse x s) := by
  unfold takePulse
  split
  · exact .refl x s
  · split
    · exact (setMonitor_untouched x _ s).pulseFrame rfl
    · exact judgeSecond_pulseFrame x s

/-! ### A filter change (R178, R179, R184) -/

theorem EdgeSelect.chooses_eq (edge : EdgeSelect) (rising : Bool) :
    edge.chooses rising = (edge == .both || edge == .rising && rising || edge == .falling && !rising) := by
  cases edge <;> cases rising <;> rfl

variable {n : LineId}

theorem takeFilterChange_line (hd : (s.line n).filterDue = true) (hi : isOutput s n = false) :
    (takeFilterChange n s).line n =
      { s.line n with
        filtered := !(s.line n).filtered, run := 0, filterDue := false
        edgeFlag := (s.line n).edgeFlag || (s.line n).edge.chooses (!((s.line n).filtered ^^ (s.line n).invert)) } := by
  simp [takeFilterChange_of_due hd hi, noteEdge_line]

theorem takeFilterChange_line_other (hd : (s.line n).filterDue = true) (hi : isOutput s n = false) {m : LineId}
    (hm : m ≠ n) : (takeFilterChange n s).line m = s.line m := by
  simp [takeFilterChange_of_due hd hi, noteEdge_line, hm, State.line_setLine_ne _ _ _ hm]

theorem takeFilterChange_level (hd : (s.line n).filterDue = true) (hi : isOutput s n = false) :
    logicalLevel (takeFilterChange n s) n = !((s.line n).filtered ^^ (s.line n).invert) := by
  have hline := takeFilterChange_line hd hi
  have ho : isOutput (takeFilterChange n s) n = false := by
    rw [← hi]
    exact isOutput_congr_of (by rw [hline]) (by rw [hline])
  rw [logicalLevel_input ho, hline]
  simp

theorem takeFilterChange_l6Pulse (hd : (s.line n).filterDue = true) (hi : isOutput s n = false) :
    (takeFilterChange n s).lineUnit.l6Pulse =
      (s.lineUnit.l6Pulse || (n == .l6 && routedL6 s && !((s.line n).filtered ^^ (s.line n).invert))) := by
  simp [takeFilterChange_of_due hd hi, noteEdge_l6Pulse]

/-- A line other than L1 has no part in HALT, so that nothing but the lines changes (R180). -/
theorem takeFilterChange_rest (hd : (s.line n).filterDue = true) (hi : isOutput s n = false) (hn : n ≠ .l1) :
    (takeFilterChange n s).carrier = s.carrier ∧ (takeFilterChange n s).status = s.status ∧
      (takeFilterChange n s).assembler = s.assembler := by
  have hl1 := takeFilterChange_line_other hd hi hn.symm
  have hframe (b t : State) : (noteHalt b t).line .l1 = t.line .l1 := by simp
  rw [takeFilterChange_of_due hd hi, hframe] at hl1
  rw [takeFilterChange_of_due hd hi, noteHalt_of_l1 hl1]
  simp

/-! ### Pulses in one keying step (R42, R152, R184) -/

theorem takeL6Pulse_of_pulse (h : s.lineUnit.l6Pulse = true) :
    takeL6Pulse s = takePulse .b (s.withLineUnit { s.lineUnit with l6Pulse := false }) := if_pos h

/-- The wrap judges a pulse handed over on L6 first, just as the PULSE on L6 does (R42). -/
theorem formWrap_takeL6Pulse (hp : s.lineUnit.l6Pulse = true) (hd : (s.line .l6).filterDue = false) :
    formWrap (takeL6Pulse s) = formWrap s := by
  have hfree : (s.withLineUnit { s.lineUnit with l6Pulse := false }).NoPulseOnL6 := ⟨rfl, fun _ => hd⟩
  have hframe := takePulse_pulseFrame .b (s.withLineUnit { s.lineUnit with l6Pulse := false })
  have htaken : (takeL6Pulse s).NoPulseOnL6 := by
    rw [takeL6Pulse_of_pulse hp]
    exact hfree.congr hframe.lines hframe.l6Pulse
  rw [formWrap_of_noPulse htaken, formWrap, takeFilterChange_of_not_due hd, ite_self]

theorem execPulse_l6 (hp : s.lineUnit.l6Pulse = true) (hw : s.timebase.wrapDue = true)
    (hm : (s.monitor .b).state ≠ .down) (hd : (s.line .l6).filterDue = false) :
    execFlywheelWrap s = execPulse ⟨.lineL6, none⟩ s := by
  have hsource : (pulseSource .lineL6 s).isSome = true := by
    rw [pulseSource_of_pulseOn (.inr (.inr ⟨rfl, rfl, hp⟩)) hm]
    rfl
  rw [execPulse_at_wrap .lineL6 hw hsource, execFlywheelWrap, if_pos hw]
  exact congrArg Host.Outcome.next (formWrap_takeL6Pulse hp hd).symm

/-- While L6 is routed an edge on PPS_B is no pulse (R184). -/
theorem execPulse_ppsB_routed (h : routedL6 s = true) : execPulse ⟨.ppsB, none⟩ s = .next s := by
  simp [execPulse, takeEdge, pulseSource, h]

theorem takeEdge_not_due (i : PulseInput) (hw : s.timebase.wrapDue = false) : (takeEdge i s).timebase.wrapDue = false :=
  (takeEdge_outcome i s).not_due hw

/-- Outside a wrap two edges are judged one after the other. -/
theorem execPulse_two (i k : PulseInput) (hw : s.timebase.wrapDue = false) :
    execPulse ⟨i, some k⟩ s = execPulse ⟨k, none⟩ (takeEdge i s) :=
  (execPulse_no_wrap ⟨i, some k⟩ hw).trans (execPulse_no_wrap ⟨k, none⟩ (takeEdge_not_due i hw)).symm

/-- A pulse in the step of a wrap brings the wrap with it (R42). -/
theorem execPulse_forms (i : PulseInput) (k : Option PulseInput) (hw : s.timebase.wrapDue = true)
    (hp : (pulseSource i s).isSome = true) : ∃ u, execPulse ⟨i, k⟩ s = .next (formWrap u) := by
  cases k with
  | none => exact ⟨takeEdge i s, execPulse_at_wrap i hw hp⟩
  | some k => exact ⟨takeEdge k (takeEdge i s), by simp [execPulse, hw, hp]⟩

/-! ### A pulse that waits for the next keying step (log 41) -/

/-- A waiting pulse has no part in the opening of the next step. -/
theorem openStep_setMonitor (pins : PinIn) (x : Link) (mon : Monitor) (s : State) :
    openStep pins (s.setMonitor x mon) = (openStep pins s).setMonitor x (mon.tick s.timebase.settings.window) := by
  have htick : (s.setMonitor x mon).timebase.tick =
      { s.timebase.tick with
        monitors := s.timebase.tick.monitors.set x (mon.tick s.timebase.settings.window) } := by
    cases x <;> rfl
  refine State.eq_of_fields ?_ ?_ ?timebase ?_ ?_ ?_ ?_ ?keying ?carrier ?lines ?_ ?_ ?_
  case timebase => rw [State.setMonitor_timebase, openStep_timebase, openStep_timebase, htick]
  case keying => exact (openStep_keying pins _).trans (openStep_keying pins s).symm
  case carrier => simp [openStep_carrier]
  case lines => rw [State.setMonitor_lineUnit, openStep_lineUnit, openStep_lineUnit]; rfl
  all_goals simp [openStep]

theorem Monitor.tick_waiting (mon : Monitor) (w : Nat) (b : Bool) :
    ({ mon with waiting := b } : Monitor).tick w = { mon.tick w with waiting := b } := by
  obtain ⟨state, good, last, timer, missed, missDue, waiting⟩ := mon
  cases timer <;> rfl

/-- A waiting pulse is taken in the step that opens. -/
theorem takeWaiting_openStep (pins : PinIn) (hw : (s.monitor x).waiting = true) :
    takeWaiting x (openStep pins s) =
      takePulse x (openStep pins (s.setMonitor x { s.monitor x with waiting := false })) := by
  rw [takeWaiting_of_waiting ((openStep_waiting pins s x).trans hw), openStep_setMonitor, Monitor.tick_waiting,
    openStep_monitor]

/-- A pulse that waited through a quiet step is taken at the next one. -/
theorem execKeyingStep_of_waiting (pins : PinIn) (hw : (s.monitor x).waiting = true)
    (hq : Quiet (s.setMonitor x { s.monitor x with waiting := false })) :
    execKeyingStep pins s =
      .next (takePulse x (openStep pins (s.setMonitor x { s.monitor x with waiting := false }))) := by
  obtain ⟨hlines, hl6, hwrap, hmissA, hmissB, hwaitA, hwaitB, hminute, hslot, hsecond, hend⟩ := hq
  have hclose : closeStep s = s := by
    refine closeStep_of_none_due hlines hl6 hwrap ?_ ?_ hminute hslot hsecond hend
    · cases x <;> exact hmissA
    · cases x <;> exact hmissB
  have htaken := takeWaiting_openStep pins hw
  rw [execKeyingStep, hclose]
  refine congrArg Host.Outcome.next ?_
  cases x with
  | a =>
    have hframe := takePulse_pulseFrame .a (openStep pins (s.setMonitor .a { s.monitor .a with waiting := false }))
    rw [htaken]
    exact takeWaiting_of_none ((hframe.waiting.trans (openStep_waiting pins _ .b)).trans hwaitB)
  | b =>
    rw [takeWaiting_of_none (x := .a) ((openStep_waiting pins s .a).trans hwaitA)]
    exact htaken

end

/-- Settles O49, event by event. -/
theorem lineEventsTakeEffect : Obligations.LineEventsTakeEffect := by
  refine ⟨fun n s hd hi => ?change, fun s hp => ⟨fun hw => ?l6, fun hw hm hd => ?l6Wrap⟩, fun s h => ?ppsB,
    fun s hw => ?noWrap, fun i k s t hw ht => ?twoEdges, fun i k s t hw hp ht => ?sealed,
    fun x i s hon hd hp hw => ?waits, fun x pins s t hwait => ?waiting, fun k s h => ?strobe⟩
  case change =>
    refine ⟨takeFilterChange n s, rfl, ?_, takeFilterChange_level hd hi, fun m hm => takeFilterChange_line_other hd hi hm,
      takeFilterChange_l6Pulse hd hi, takeFilterChange_rest hd hi⟩
    rw [takeFilterChange_line hd hi, EdgeSelect.chooses_eq]
  case l6 => exact (execPulse_no_wrap ⟨.lineL6, none⟩ hw).trans (congrArg Host.Outcome.next (takeL6Pulse_of_pulse hp))
  case l6Wrap => exact execPulse_l6 hp hw hm hd
  case ppsB => exact execPulse_ppsB_routed h
  case noWrap => exact congrArg Host.Outcome.next (if_neg (by simp [hw]))
  case twoEdges =>
    have hedge : Host.Outcome.next (takeEdge i s) = .next t := (execPulse_no_wrap ⟨i, none⟩ hw).symm.trans ht
    cases hedge
    exact execPulse_two i k hw
  case sealed =>
    obtain ⟨u, hu⟩ := execPulse_forms i k hw hp
    cases hu.symm.trans ht
    exact formWrap_seals u
  case waits =>
    obtain ⟨unit, -, -, hedge⟩ := takeEdge_of_pulseOn hon
    refine ⟨_, (execPulse_no_wrap ⟨i, none⟩ hw).trans (congrArg Host.Outcome.next (hedge.trans
      (takePulse_of_waits hd hp))), rfl, rfl, rfl, rfl, rfl⟩
  case waiting =>
    intro s0 hq ht
    cases (execKeyingStep_of_quiet hq pins).symm.trans ht
    exact execKeyingStep_of_waiting pins hwait hq
  case strobe => exact congrArg Host.Outcome.next (if_pos h)

end Sys2Proof.Machine

/-! PROOFS. Time scale, leap list, transition list and civil state, block by block: what their operations keep (R61 to R67, R78
to R89). -/

namespace Sys2Proof.Machine

/-! ### Balance, leap list and label (R61 to R67) -/

/-- Balance, pending balance, leap list and label agree (R61 to R67, R79 to R82). -/
structure TimeScale.Agrees (unit : TimeScale) (leaps : List LeapEntry) : Prop where
  balance : balanceInRange unit.balance = true
  base : balanceInRange unit.sumBase = true
  sums : sumsInRange unit.sumBase leaps = true
  leaps : LeapsSound leaps
  label : ∀ lab ∈ unit.label, lab.Sound ∧ (lab.count : Int) - unit.balance = lab.u + (if lab.inserted then 1 else 0)

/-- The flywheel carries the count of the label. -/
theorem timeSound_iff (s : State) :
    TimeSound s ↔ s.timeScale.Agrees s.rules.leaps ∧ s.timebase.count = s.timeScale.label.map (·.count) := by
  constructor
  · rintro ⟨hbalance, hbase, hsums, hleaps, hcount, hlabel⟩
    exact ⟨⟨hbalance, hbase, hsums, hleaps, hlabel⟩, hcount⟩
  · rintro ⟨⟨hbalance, hbase, hsums, hleaps, hlabel⟩, hcount⟩
    exact ⟨hbalance, hbase, hsums, hleaps, hcount, hlabel⟩

theorem LeapsSound.sublist {xs ys : List LeapEntry} (h : LeapsSound xs) (hsub : ys.Sublist xs) : LeapsSound ys := by
  obtain ⟨hlength, horder, hspan⟩ := h
  exact ⟨hsub.length_le.trans hlength, horder.sublist hsub, fun e he => hspan e (hsub.subset he)⟩

theorem sumsInRange_cons (balance : Int) (e : LeapEntry) (rest : List LeapEntry) :
    sumsInRange balance (e :: rest) = true ↔
      balanceInRange (balance + e.delta) = true ∧ sumsInRange (balance + e.delta) rest = true := by
  rw [sumsInRange, Bool.and_eq_true]
  rfl

/-- Whatever entries are due, balance and later sums stay in range (R64, R70). -/
theorem applyDue_inRange (c : Int) {balance : Int} {leaps : List LeapEntry} (hb : balanceInRange balance = true)
    (hs : sumsInRange balance leaps = true) :
    balanceInRange (applyDue c balance leaps).1 = true ∧
      sumsInRange (applyDue c balance leaps).1 (applyDue c balance leaps).2 = true := by
  induction leaps generalizing balance with
  | nil => exact ⟨hb, hs⟩
  | cons e rest ih =>
    cases hdue : e.due c balance with
    | false => rw [applyDue_not_due rest hdue]; exact ⟨hb, hs⟩
    | true =>
      obtain ⟨hb', hs'⟩ := (sumsInRange_cons balance e rest).1 hs
      rw [applyDue_due rest hdue]
      exact ih hb' hs'

/-- A normal second of the span has a label that states it (R63, R65). -/
theorem splitLabel_sound {uniform : Int} (h : inSpan uniform = true) (count : Nat) (mark : Mark) :
    (splitLabel uniform.toNat count mark).Sound ∧
      uniform = (splitLabel uniform.toNat count mark).u +
        (if (splitLabel uniform.toNat count mark).inserted then 1 else 0) := by
  obtain ⟨hlow, hhigh⟩ := (inSpan_iff uniform).1 h
  rw [splitLabel_eq]
  refine ⟨⟨?_, rfl, rfl, rfl, rfl⟩, ?_⟩
  · dsimp only
    omega
  · simp [hlow]

/-- An inserted second of the span shares the number of the second before it (R63, R66). -/
theorem insertedLabel_sound {e : LeapEntry} (h : inSpan (e.midnight - 1) = true) (count : Nat) (mark : Mark) :
    (insertedLabel e.day (e.midnight - 1).toNat count mark).Sound ∧
      e.midnight = (insertedLabel e.day (e.midnight - 1).toNat count mark).u +
        (if (insertedLabel e.day (e.midnight - 1).toNat count mark).inserted then 1 else 0) := by
  obtain ⟨hlow, hhigh⟩ := (inSpan_iff _).1 h
  have hu : (e.midnight - 1).toNat = 86400 * e.day + 86399 := by
    unfold LeapEntry.midnight
    omega
  have hmidnight : e.midnight = 86400 * e.day + 86400 := by
    unfold LeapEntry.midnight
    omega
  rw [hu]
  refine ⟨⟨?_, ?_, ?_, ?_, rfl, ?_⟩, ?_⟩
  all_goals
    simp only [insertedLabel, if_true]
    omega

/-- The label that a uniform number takes states the second of that number (R63, R65). -/
theorem labelOf_sound {uniform : Int} {leaps : List LeapEntry} {count : Nat} {mark : Mark} {lab : Label}
    (h : labelOf uniform leaps count mark = some lab) :
    lab.Sound ∧ uniform = lab.u + (if lab.inserted then 1 else 0) := by
  have normal {lab : Label}
      (h : (if inSpan uniform then some (splitLabel uniform.toNat count mark) else none) = some lab) :
      lab.Sound ∧ uniform = lab.u + (if lab.inserted then 1 else 0) := by
    obtain ⟨hspan, he⟩ := Option.ite_none_right_eq_some.1 h
    obtain rfl := Option.some.inj he
    exact splitLabel_sound hspan count mark
  cases leaps with
  | nil => exact normal h
  | cons e rest =>
    simp only [labelOf] at h
    split at h
    · next hinserted =>
      obtain ⟨hspan, he⟩ := Option.ite_none_right_eq_some.1 h
      obtain rfl := Option.some.inj he
      obtain ⟨-, rfl⟩ := hinserted
      exact insertedLabel_sound hspan count mark
    · exact normal h

/-- A boundary keeps balance, leap list and label in agreement (R64, R65). -/
theorem TimeScale.Agrees.labelBoundary {unit : TimeScale} {leaps : List LeapEntry} (h : unit.Agrees leaps)
    (carried : Option (Nat × Mark)) :
    (labelBoundary unit leaps carried).1.Agrees (labelBoundary unit leaps carried).2 := by
  cases carried with
  | none => exact ⟨h.base, h.base, h.sums, h.leaps, by simp [labelBoundary_absent]⟩
  | some p =>
    obtain ⟨c, mark⟩ := p
    obtain ⟨hb, hs⟩ := applyDue_inRange c h.base h.sums
    refine ⟨hb, hb, hs, h.leaps.sublist (applyDue_suffix _ _ _).sublist, fun lab hlab => ?_⟩
    obtain ⟨hsound, hu⟩ := labelOf_sound hlab
    rw [(labelOf_count hlab).1]
    exact ⟨hsound, hu⟩

/-! ### Lists in order (R79, R83) -/

section

variable {α : Type} {key : α → Nat} {e x : α} {xs : List α}

/-- An entry put between the smaller and the greater ones leaves a list in order. -/
theorem pairwise_between (h : xs.Pairwise (key · < key ·)) :
    (xs.filter (key · < key e) ++ e :: xs.filter (key e < key ·)).Pairwise (key · < key ·) := by
  refine List.pairwise_append.2 ⟨h.filter _, List.pairwise_cons.2 ⟨?_, h.filter _⟩, ?_⟩
  · intro y hy
    simpa using (List.mem_filter.1 hy).2
  · intro y hy z hz
    have hlow : key y < key e := by simpa using (List.mem_filter.1 hy).2
    rcases List.mem_cons.1 hz with rfl | hz
    · exact hlow
    · exact hlow.trans (by simpa using (List.mem_filter.1 hz).2)

theorem mem_of_mem_between (h : x ∈ xs.filter (key · < key e) ++ e :: xs.filter (key e < key ·)) : x = e ∨ x ∈ xs := by
  simp only [List.mem_append, List.mem_cons, List.mem_filter] at h
  tauto

end

theorem length_insertLeap (e : LeapEntry) (leaps : List LeapEntry) : (insertLeap e leaps).length = leaps.length + 1 := by
  induction leaps with
  | nil => rfl
  | cons x rest ih =>
    unfold insertLeap
    split
    · rfl
    · simp [ih]

theorem LeapsSound.insert {e : LeapEntry} {leaps : List LeapEntry} (h : LeapsSound leaps) (hroom : leaps.length < 4)
    (hfree : ∀ x ∈ leaps, x.day ≠ e.day) (hspan : e.day ≤ Config.lastDay) : LeapsSound (insertLeap e leaps) := by
  obtain ⟨-, horder, hdays⟩ := h
  have heq := insertLeap_eq e leaps horder hfree
  refine ⟨(length_insertLeap e leaps).trans_le hroom, heq ▸ pairwise_between horder, fun x hx => ?_⟩
  rcases mem_of_mem_between (heq ▸ hx) with rfl | hx
  · exact hspan
  · exact hdays x hx

theorem TransitionsSound.sublist {xs ys : List Transition} (h : TransitionsSound xs) (hsub : ys.Sublist xs) :
    TransitionsSound ys := by
  obtain ⟨hlength, horder, hentries⟩ := h
  exact ⟨hsub.length_le.trans hlength, horder.sublist hsub, fun e he => hentries e (hsub.subset he)⟩

theorem length_putTransition_le (e : Transition) (ts : List Transition) :
    (putTransition e ts).length ≤ ts.length + 1 := by
  induction ts with
  | nil => exact le_rfl
  | cons x rest ih =>
    unfold putTransition
    split
    · exact le_rfl
    · split
      · exact Nat.le_succ _
      · exact Nat.succ_le_succ ih

/-- An entry put at a minute that is listed replaces the one there (R84). -/
theorem length_putTransition_of_listed {e : Transition} {ts : List Transition} (ho : ts.Pairwise (·.minute < ·.minute))
    (h : ∃ x ∈ ts, x.minute = e.minute) : (putTransition e ts).length = ts.length := by
  induction ts with
  | nil => simp at h
  | cons x rest ih =>
    obtain ⟨hlow, hrest⟩ := List.pairwise_cons.1 ho
    obtain ⟨y, hy, hminute⟩ := h
    unfold putTransition
    rcases List.mem_cons.1 hy with rfl | hy
    · simp [hminute]
    · have hx : x.minute < e.minute := hminute ▸ hlow y hy
      rw [if_neg (by omega), if_neg (by omega), List.length_cons, ih hrest ⟨y, hy, hminute⟩, List.length_cons]

theorem TransitionsSound.put {e : Transition} {ts : List Transition} (h : TransitionsSound ts)
    (hroom : (∃ x ∈ ts, x.minute = e.minute) ∨ ts.length < 16) (hspan : e.minute ≤ Config.lastMinute)
    (hoffset : offsetInRange e.offset = true) : TransitionsSound (putTransition e ts) := by
  obtain ⟨hlength, horder, hentries⟩ := h
  have heq := putTransition_eq e ts horder
  refine ⟨?_, heq ▸ pairwise_between horder, fun x hx => ?_⟩
  · rcases hroom with hlisted | hroom
    · exact (length_putTransition_of_listed horder hlisted).trans_le hlength
    · exact (length_putTransition_le e ts).trans hroom
  · rcases mem_of_mem_between (heq ▸ hx) with rfl | hx
    · exact ⟨hspan, hoffset⟩
    · exact hentries x hx

/-! ### The civil state (R78, R83, R87 to R89) -/

/-- Transition list, civil state and windows in order and range (R78, R83, R87, R89). -/
structure RuleLists.CivilInRange (r : RuleLists) : Prop where
  transitions : TransitionsSound r.transitions
  offset : offsetInRange r.offset = true
  leapWindow : 1 ≤ r.leapWindow ∧ r.leapWindow ≤ 1440
  changeWindow : 1 ≤ r.changeWindow ∧ r.changeWindow ≤ 1440

theorem civilSound_iff (s : State) :
    CivilSound s ↔ s.rules.CivilInRange ∧ ∀ v ∈ s.assembler.assembly, offsetInRange v.offset = true := by
  constructor
  · rintro ⟨hts, hoffset, hleap, hleap', hchange, hchange', hview⟩
    exact ⟨⟨hts, hoffset, ⟨hleap, hleap'⟩, hchange, hchange'⟩, hview⟩
  · rintro ⟨⟨hts, hoffset, ⟨hleap, hleap'⟩, hchange, hchange'⟩, hview⟩
    exact ⟨hts, hoffset, hleap, hleap', hchange, hchange', hview⟩

/-- The second rule lists have the transitions, the civil state and the windows of the first. -/
structure RuleLists.SameCivil (r q : RuleLists) : Prop where
  transitions : q.transitions = r.transitions
  offset : q.offset = r.offset
  leapWindow : q.leapWindow = r.leapWindow
  changeWindow : q.changeWindow = r.changeWindow

section

variable {r q : RuleLists} {s t u : State}

theorem RuleLists.SameCivil.of_eq (h : q = r) : r.SameCivil q := ⟨by rw [h], by rw [h], by rw [h], by rw [h]⟩

theorem RuleLists.CivilInRange.congr (h : r.CivilInRange) (he : r.SameCivil q) : q.CivilInRange :=
  ⟨he.transitions ▸ h.transitions, he.offset ▸ h.offset, he.leapWindow ▸ h.leapWindow, he.changeWindow ▸ h.changeWindow⟩

theorem CivilSound.congr (h : CivilSound s) (hr : s.rules.SameCivil t.rules)
    (ha : t.assembler.assembly = s.assembler.assembly) : CivilSound t := by
  obtain ⟨hcivil, hview⟩ := (civilSound_iff s).1 h
  exact (civilSound_iff t).2 ⟨hcivil.congr hr, ha ▸ hview⟩

/-- The offset that due transitions leave is the list's or the one in force (R88). -/
theorem RuleLists.CivilInRange.civilAfter (h : r.CivilInRange) (t : Nat) :
    offsetInRange (civilAfter r (dueTransitions t r.transitions)).1 = true := by
  obtain ⟨-, -, hentries⟩ := h.transitions
  unfold Machine.civilAfter
  split
  · next e he => exact (hentries e (List.mem_filter.1 (List.mem_of_getLast? he)).1).2
  · exact h.offset

/-- A view's civil state applied at the completion (R117). -/
theorem RuleLists.CivilInRange.applyTransitions (h : r.CivilInRange) {v : View} (hv : offsetInRange v.offset = true) :
    (applyTransitions v r).CivilInRange := by
  unfold Machine.applyTransitions
  split
  · exact h
  · exact ⟨h.transitions.sublist List.filter_sublist, hv, h.leapWindow, h.changeWindow⟩

/-! ### The assembly and the boundary (R88, R115, R117) -/

theorem CivilSound.completeAssembly (h : CivilSound s) : CivilSound (completeAssembly s) := by
  obtain ⟨hcivil, hview⟩ := (civilSound_iff s).1 h
  cases hv : s.assembler.assembly with
  | none => rwa [completeAssembly_of_none hv]
  | some v =>
    rw [completeAssembly_of_some hv]
    refine (civilSound_iff _).2 ⟨?_, by simp⟩
    simpa using hcivil.applyTransitions (hview v hv)

theorem CivilSound.startAssembly (h : CivilSound s) (lab : Label) : CivilSound (startAssembly lab s) := by
  obtain ⟨hcivil, -⟩ := (civilSound_iff s).1 h
  refine (civilSound_iff _).2 ⟨hcivil.congr ⟨rfl, rfl, rfl, rfl⟩, fun v hv => ?_⟩
  cases hv
  exact hcivil.civilAfter _

/-- The words at a boundary leave the civil state and an assembly as they are (R126, R127, R129). -/
theorem CivilSound.assemblerWords (h : CivilSound s) (lab : Label) : CivilSound (assemblerWords lab s) := by
  have dropped : CivilSound (if lab.mark = .none then s else dropWords s) := by
    split
    · exact h
    · exact h.congr (by rw [dropWords_rules]; exact ⟨rfl, rfl, rfl, rfl⟩) (by rw [dropWords_assembler])
  unfold Machine.assemblerWords
  dsimp only
  split
  · exact dropped.congr (.of_eq (by simp)) (by simp [handOver_assembler, copySlot_assembler])
  · exact dropped.congr (.of_eq (by simp)) (by rw [beginSlot_assembler])

theorem CivilSound.assemblerBoundary (h : CivilSound s) (label : Option Label) :
    CivilSound (assemblerBoundary label s) := by
  cases label with
  | none => exact h.congr (.of_eq (by simp [Machine.assemblerBoundary])) (by rw [assemblerBoundary_none])
  | some lab =>
    rw [assemblerBoundary_some]
    split
    · exact (h.assemblerWords lab).startAssembly lab
    · exact h.assemblerWords lab

theorem CivilSound.secondBoundary (h : CivilSound s) (cause : BoundaryCause) : CivilSound (secondBoundary cause s) := by
  have hlabelled : CivilSound (labelled cause s) :=
    h.completeAssembly.congr
      (by rw [labelled, (noteLimited_frame _ _).2.2.2.2.1, (timeBoundary_spec cause _).2.1]; exact ⟨rfl, rfl, rfl, rfl⟩)
      (by rw [labelled_assembler])
  refine (hlabelled.assemblerBoundary (beginningLabel cause s)).congr (.of_eq ?_) ?_
  · simp [secondBoundary_eq, boundaryCarrier]
  · rw [(secondBoundary_words cause s).1]

theorem TimeSound.secondBoundary (h : TimeSound s) (cause : BoundaryCause) : TimeSound (secondBoundary cause s) := by
  obtain ⟨hagrees, -⟩ := (timeSound_iff s).1 h
  obtain ⟨hscale, htb, hleaps, -⟩ := secondBoundary_spec cause s
  refine (timeSound_iff _).2 ⟨?_, ?_⟩
  · rw [hscale, hleaps]
    exact hagrees.labelBoundary _
  · rw [htb, hscale]
    exact (Timebase.atBoundary_fields _ _).2.2.1

end

end Sys2Proof.Machine

/-! PROOFS. What every step keeps, from what the events and the answers of the requests keep, whatever the relation is (R26 to
R28; log 2). -/

namespace Sys2Proof.Machine

/-- A relation from a state to later ones that holds of the events, of the parts of a request's take and of its answers. -/
structure StepClosed (K : State → State → Prop) : Prop where
  refl (s : State) : K s s
  trans {s t u : State} : K s t → K t u → K s u
  withPending (s : State) (rest : List Instr) : K s (s.withPending rest)
  popTaken (src : Link) (s : State) : K s (popTaken src s)
  finishTake (rq : Request) (an : Answer) : K an.state (finishTake rq an)
  event {c : Instr} {s t : State} : sourceOf c = none → exec c s = .next t → K s t
  own {pins : PinIn} {wire : WireIn} {own : Request → State → Answer} :
    own ∈ ownAnswers pins wire → ∀ (rq : Request) (s : State), K s (own rq s).state
  control (rq : Request) (s : State) : K s (controlAnswer rq s).state

namespace StepClosed

variable {K : State → State → Prop} {s t : State}

/-- The first checks of a row answer with the state as it is or leave the answer to the row's own (R27, R32). -/
theorem row (h : StepClosed K) {src : Link} {pins : PinIn} {wire : WireIn} {row : RequestRow}
    (hrow : row ∈ requestRows src pins wire) (rq : Request) (s : State) : K s (row.handler rq s).state := by
  have hs := h.refl s
  cases row_firstChecks hrow with
  | checked hown _ _ hhandler => exact hhandler ▸ checked_state _ _ hs (h.own hown rq s)
  | lengthChecked hown _ _ hhandler => exact hhandler ▸ lengthChecked_state _ hs (h.own hown rq s)
  | writeMap _ hhandler => exact hhandler ▸ writeMapAnswer_state hs (h.own (writeMapOwn_mem pins wire) rq s)
  | writeTest _ hhandler => exact hhandler ▸ writeTestAnswer_state hs (h.own (writeTestOwn_mem pins wire) rq s)

theorem request (h : StepClosed K) {c : Instr} {src : Link} (hc : sourceOf c = some src) (ht : exec c s = .next t) :
    K s t := by
  have popped : K s (Machine.popTaken src s) := h.popTaken src s
  have finished {rq : Request} {an : Answer} (ha : K (Machine.popTaken src s) an.state) : K s (Machine.finishTake rq an) :=
    h.trans (h.trans popped ha) (h.finishTake rq an)
  rcases sourceOf_cases hc with ⟨pins, wire, row, hrow, rfl⟩ | hcontrol | rfl
  · rw [exec_row hrow] at ht
    obtain rfl := Host.Outcome.next.inj ht
    rcases takeNamed_cases row.name row.handler src s with he | ⟨rq, -, he⟩ <;> rw [he]
    · exact h.refl s
    · exact finished (h.row hrow rq _)
  · obtain ⟨row, hrow⟩ := exec_control hcontrol
    rw [hrow] at ht
    obtain rfl := Host.Outcome.next.inj ht
    rcases takeControl_cases row src s with he | ⟨rq, -, he⟩ <;> rw [he]
    · exact h.refl s
    · exact finished (h.control rq _)
  · obtain rfl := Host.Outcome.next.inj ht
    rcases takeUnknown_cases src s with he | he | ⟨rq, -, he⟩ <;> rw [he]
    · exact h.refl s
    · exact popped
    · exact finished (h.refl _)

theorem step (h : StepClosed K) (ht : step s = .next t) : K s t := by
  unfold Machine.step at ht
  split at ht
  · obtain rfl := Host.Outcome.next.inj ht
    exact h.refl s
  · next c rest _ =>
    have hrest : K s (s.withPending rest) := h.withPending s rest
    cases hc : sourceOf c with
    | none => exact h.trans hrest (h.event hc ht)
    | some src => exact h.trans hrest (h.request hc ht)

end StepClosed

end Sys2Proof.Machine

/-! PROOFS. Every step keeps balance, leap list and label in agreement, and the civil state in range (O51). -/

namespace Sys2Proof.Machine

/-- The second state keeps both promises of the first: balance, leap list and label agree, and the civil state is in range. -/
structure State.KeepsTime (s t : State) : Prop where
  time : TimeSound s → TimeSound t
  civil : CivilSound s → CivilSound t

/-- The second state has the first one's time scale, flywheel count, leap list, civil state and assembly. -/
structure State.SameLists (s t : State) : Prop where
  timeScale : t.timeScale = s.timeScale
  count : t.timebase.count = s.timebase.count
  leaps : t.rules.leaps = s.rules.leaps
  civil : s.rules.SameCivil t.rules
  assembly : t.assembler.assembly = s.assembler.assembly

section

variable {s t u : State}

theorem State.SameLists.of_rules (hscale : t.timeScale = s.timeScale) (hcount : t.timebase.count = s.timebase.count)
    (hrules : t.rules = s.rules) (hassembly : t.assembler.assembly = s.assembler.assembly) : s.SameLists t :=
  ⟨hscale, hcount, by rw [hrules], .of_eq hrules, hassembly⟩

theorem State.KeepsTime.refl (s : State) : s.KeepsTime s := ⟨id, id⟩

theorem State.KeepsTime.trans (h1 : s.KeepsTime t) (h2 : t.KeepsTime u) : s.KeepsTime u :=
  ⟨h2.time ∘ h1.time, h2.civil ∘ h1.civil⟩

theorem State.SameLists.keepsTime (h : s.SameLists t) : s.KeepsTime t := by
  refine ⟨fun hs => ?_, fun hs => hs.congr h.civil h.assembly⟩
  rwa [timeSound_iff, h.timeScale, h.leaps, h.count, ← timeSound_iff]

/-- What concerns neither time scale, flywheel count, rule lists nor assembly. -/
theorem State.KeepsTime.of_same (hscale : t.timeScale = s.timeScale) (hcount : t.timebase.count = s.timebase.count)
    (hrules : t.rules = s.rules) (hassembly : t.assembler.assembly = s.assembler.assembly) : s.KeepsTime t :=
  (State.SameLists.of_rules hscale hcount hrules hassembly).keepsTime

/-- A new time scale that agrees with the leap list under the label that stands (R61 to R63). -/
theorem State.KeepsTime.of_timeScale {unit : TimeScale} (hlabel : unit.label = s.timeScale.label)
    (h : s.timeScale.Agrees s.rules.leaps → unit.Agrees s.rules.leaps) : s.KeepsTime (s.withTimeScale unit) := by
  refine ⟨fun hs => ?_, fun hs => hs⟩
  obtain ⟨hagrees, hcount⟩ := (timeSound_iff s).1 hs
  exact (timeSound_iff _).2 ⟨h hagrees, by simpa [hlabel] using hcount⟩

/-- A new leap list that is in order and has its sums in range (R79, R81, R82). -/
theorem State.KeepsTime.of_leaps {leaps : List LeapEntry} (hsums : sumsInRange s.timeScale.sumBase leaps = true)
    (hleaps : LeapsSound s.rules.leaps → LeapsSound leaps) :
    s.KeepsTime (s.withRules { s.rules with leaps := leaps }) := by
  refine ⟨fun hs => ?_, fun hs => hs.congr ⟨rfl, rfl, rfl, rfl⟩ rfl⟩
  obtain ⟨hagrees, hcount⟩ := (timeSound_iff s).1 hs
  exact (timeSound_iff _).2 ⟨⟨hagrees.balance, hagrees.base, hsums, hleaps hagrees.leaps, hagrees.label⟩, hcount⟩

/-- Rule lists with the same leap list and a civil state in range (R83, R87, R89). -/
theorem State.KeepsTime.of_civil {rules : RuleLists} (hleaps : rules.leaps = s.rules.leaps)
    (h : s.rules.CivilInRange → rules.CivilInRange) : s.KeepsTime (s.withRules rules) := by
  constructor
  · intro hs
    rwa [timeSound_iff, State.withRules_rules, hleaps, State.withRules_timeScale, State.withRules_timebase,
      ← timeSound_iff]
  · intro hs
    obtain ⟨hcivil, hview⟩ := (civilSound_iff s).1 hs
    exact (civilSound_iff _).2 ⟨h hcivil, hview⟩

/-! ### The boundary and the assembly's completion (R41, R65, R117) -/

theorem secondBoundary_keepsTime (cause : BoundaryCause) (s : State) : s.KeepsTime (secondBoundary cause s) :=
  ⟨fun h => h.secondBoundary cause, fun h => h.secondBoundary cause⟩

theorem completeAssembly_keepsTime (s : State) : s.KeepsTime (completeAssembly s) := by
  refine ⟨fun h => ?_, CivilSound.completeAssembly⟩
  rw [timeSound_iff] at h ⊢
  simpa using h

/-! ### Pulses and missing seconds (R44 to R55) -/

theorem setMonitor_keepsTime (x : Link) (mon : Monitor) (s : State) : s.KeepsTime (s.setMonitor x mon) :=
  .of_same rfl rfl rfl rfl

theorem setPhase_keepsTime (x : Link) (s : State) : s.KeepsTime (setPhase x s) := .of_same rfl rfl rfl rfl

theorem activate_keepsTime (x : Link) (s : State) : s.KeepsTime (activate x s) :=
  .of_same (by simp) (by rw [activate_timebase]) (by simp) (by simp)

theorem steer_keepsTime (x : Link) (e : Int) (s : State) : s.KeepsTime (steer x e s) := by
  unfold steer
  split
  · exact (setPhase_keepsTime x s).trans (secondBoundary_keepsTime _ _)
  · split
    · exact .refl s
    · exact .of_same rfl rfl rfl rfl

theorem adopt_keepsTime (x : Link) (f : EpochFrame) (e : Int) (s : State) : s.KeepsTime (adopt x f e s) := by
  have hactive := activate_keepsTime x s
  unfold adopt
  dsimp only
  split
  · exact (hactive.trans (setPhase_keepsTime x _)).trans (secondBoundary_keepsTime _ _)
  · split
    · exact hactive.trans (steer_keepsTime x e _)
    · have noted (u : State) (status : StatusUnit) : u.KeepsTime (u.withStatus status) := .of_same rfl rfl rfl rfl
      exact ((hactive.trans (noted _ _)).trans (setPhase_keepsTime x _)).trans (secondBoundary_keepsTime _ _)

theorem revertiveTest_keepsTime (x : Link) (f : EpochFrame) (e : Int) (s : State) :
    s.KeepsTime (revertiveTest x f e s) := by
  unfold revertiveTest
  split
  · split
    · exact (activate_keepsTime x s).trans (steer_keepsTime x e _)
    · exact .refl s
  · exact .of_same rfl rfl rfl rfl

theorem goodSecond_keepsTime (x : Link) (f : EpochFrame) (e : Int) (s : State) : s.KeepsTime (goodSecond x f e s) := by
  have counted (mon : Monitor) := setMonitor_keepsTime x mon s
  unfold goodSecond
  dsimp only
  split
  · exact (counted _).trans (steer_keepsTime x e _)
  · split
    · split
      · exact (counted _).trans (adopt_keepsTime x f e _)
      · exact (counted _).trans (revertiveTest_keepsTime x f e _)
    · exact counted _

theorem badSecond_keepsTime (x : Link) (s : State) : s.KeepsTime (badSecond x s) :=
  .of_same (by simp) (by rw [badSecond_timebase]) (by simp) (by simp)

/-- The leap-hint check leaves the lists as they are (R93). -/
theorem checkHint_sameLists (f : EpochFrame) (s : State) : s.SameLists (checkHint f s) := by
  unfold checkHint
  dsimp only
  split
  · exact .of_rules rfl rfl rfl rfl
  · exact ⟨rfl, rfl, rfl, ⟨rfl, rfl, rfl, rfl⟩, rfl⟩

theorem noteFrame_keepsTime (x : Link) (frame : Option EpochFrame) (s : State) : s.KeepsTime (noteFrame x frame s) := by
  unfold noteFrame
  split
  · exact .refl s
  · split
    · exact (checkHint_sameLists _ s).keepsTime
    · exact .of_same (by simp) (by simp) (by simp) (by simp)

theorem judgeSecond_keepsTime (x : Link) (s : State) : s.KeepsTime (judgeSecond x s) := by
  have consumed : s.KeepsTime (consumePulse x s) := .of_same rfl rfl rfl rfl
  have noted (frame : Option EpochFrame) (e : Int) :
      s.KeepsTime (noteStray x e (noteFrame x frame (consumePulse x s))) :=
    (consumed.trans (noteFrame_keepsTime x frame _)).trans (.of_same (by simp) (by simp) (by simp) (by simp))
  unfold judgeSecond
  dsimp only
  split
  · exact (noted _ _).trans (goodSecond_keepsTime x _ _ _)
  · exact (noted _ _).trans (.of_same rfl rfl rfl rfl)
  · exact (noted _ _).trans (badSecond_keepsTime x _)

theorem takePulse_keepsTime (x : Link) (s : State) : s.KeepsTime (takePulse x s) := by
  unfold takePulse
  split
  · exact .refl s
  · split
    · exact .of_same rfl rfl rfl rfl
    · exact judgeSecond_keepsTime x s

theorem takeWaiting_keepsTime (x : Link) (s : State) : s.KeepsTime (takeWaiting x s) := by
  unfold takeWaiting
  split
  · exact (setMonitor_keepsTime x _ s).trans (takePulse_keepsTime x _)
  · exact .refl s

theorem takeL6Pulse_keepsTime (s : State) : s.KeepsTime (takeL6Pulse s) := by
  unfold takeL6Pulse
  split
  · have handed : s.KeepsTime (s.withLineUnit { s.lineUnit with l6Pulse := false }) := .of_same rfl rfl rfl rfl
    exact handed.trans (takePulse_keepsTime .b _)
  · exact .refl s

theorem takeEdge_keepsTime (i : PulseInput) (s : State) : s.KeepsTime (takeEdge i s) := by
  cases i with
  | ppsA => exact takePulse_keepsTime .a s
  | ppsB =>
    simp only [takeEdge]
    split
    · exact .refl s
    · exact takePulse_keepsTime .b s
  | lineL6 => exact takeL6Pulse_keepsTime s

theorem takeMissing_keepsTime (x : Link) (s : State) : s.KeepsTime (takeMissing x s) := by
  unfold takeMissing
  split
  · exact (setMonitor_keepsTime x _ s).trans (badSecond_keepsTime x _)
  · exact .refl s

/-! ### The keying step and its events (R40 to R45, R178) -/

/-- A HALT breaks the current word at most (R161, R173). -/
theorem noteHalt_keepsTime (before s : State) : s.KeepsTime (noteHalt before s) := by
  refine .of_same (by simp) (by simp) (by simp) ?_
  rw [noteHalt_eq]
  split
  · rw [haltAssertion_assembler]
    split
    · rw [markBroken_assembler]
    · rfl
  · rfl

theorem takeFilterChange_keepsTime (n : LineId) (s : State) : s.KeepsTime (takeFilterChange n s) := by
  unfold takeFilterChange
  split
  · exact State.KeepsTime.trans (.of_same (by simp) (by simp) (by simp) (by simp)) (noteHalt_keepsTime s _)
  · exact .refl s

theorem takeFilterChanges_keepsTime (s : State) : s.KeepsTime (takeFilterChanges s) := by
  have folded (lines : List LineId) : ∀ u : State, u.KeepsTime (lines.foldl (fun s n => takeFilterChange n s) u) := by
    induction lines with
    | nil => exact .refl
    | cons n rest ih => exact fun u => (takeFilterChange_keepsTime n u).trans (ih _)
  exact folded allLines s

theorem formWrap_keepsTime (s : State) : s.KeepsTime (formWrap s) := by
  have routed : s.KeepsTime (if routedL6 s then takeFilterChange .l6 s else s) := by
    split
    · exact takeFilterChange_keepsTime .l6 s
    · exact .refl s
  have wrapped (u : State) : u.KeepsTime (takeWrap u) := by
    unfold takeWrap
    split
    · exact secondBoundary_keepsTime .advance u
    · exact .refl u
  exact ((routed.trans (takeL6Pulse_keepsTime _)).trans (wrapped _)).trans (.of_same rfl rfl rfl rfl)

theorem closeStep_keepsTime (s : State) : s.KeepsTime (closeStep s) := by
  have wrapped (u : State) : u.KeepsTime (if u.timebase.wrapDue then formWrap u else takeL6Pulse u) := by
    split
    · exact formWrap_keepsTime u
    · exact takeL6Pulse_keepsTime u
  unfold closeStep
  exact ((((takeFilterChanges_keepsTime s).trans (wrapped _)).trans (takeMissing_keepsTime .a _)).trans
    (takeMissing_keepsTime .b _)).trans (.of_same (by simp) (by simp) (by simp) (by simp))

theorem execPulse_keepsTime (i : PulseEdges) (ht : execPulse i s = .next t) : s.KeepsTime t := by
  have hwrap (w : Bool) (u : State) : u.KeepsTime (if w then formWrap u else u) := by
    cases w
    · exact .refl u
    · exact formWrap_keepsTime u
  obtain ⟨input, also⟩ := i
  obtain rfl := Host.Outcome.next.inj ht
  cases also with
  | some k => exact ((takeEdge_keepsTime input s).trans (takeEdge_keepsTime k _)).trans (hwrap _ _)
  | none => exact (takeEdge_keepsTime input s).trans (hwrap _ _)

theorem keyingStep_keepsTime (pins : PinIn) (s : State) :
    s.KeepsTime (takeWaiting .b (takeWaiting .a (openStep pins (closeStep s)))) := by
  have opened (u : State) : u.KeepsTime (openStep pins u) :=
    .of_same (by simp) (by rw [openStep_timebase]; rfl) (by simp) (by simp)
  exact (((closeStep_keepsTime s).trans (opened _)).trans (takeWaiting_keepsTime .a _)).trans (takeWaiting_keepsTime .b _)

/-! ### The resets (R38, R61, R78) -/

theorem powerOn_keepsTime (pins : PinIn) (s : State) :
    s.KeepsTime ((State.powerOn pins).withPending s.pending |>.withFreeDraws s.freeDraws) :=
  ⟨fun _ => reset_time, fun _ => reset_civil⟩

/-- A soft restart keeps balance and lists, and leaves neither time, label nor assembly (R39, R61, R78). -/
theorem softRestartEffect_keepsTime (src : Link) (wire : WireIn) (s : State) :
    s.KeepsTime (softRestartEffect src wire s) := by
  have hscale : (softRestartEffect src wire s).timeScale = { s.timeScale with label := none } := rfl
  have hcount : (softRestartEffect src wire s).timebase.count = none := rfl
  have hassembly : (softRestartEffect src wire s).assembler.assembly = none := rfl
  have hrules : (softRestartEffect src wire s).rules = { s.rules with lateRef := none, lastMismatch := none } := rfl
  constructor
  · intro h
    obtain ⟨⟨hbalance, hbase, hsums, hleaps, -⟩, -⟩ := (timeSound_iff s).1 h
    rw [timeSound_iff, hscale, hcount, hrules]
    exact ⟨⟨hbalance, hbase, hsums, hleaps, by simp⟩, rfl⟩
  · intro h
    obtain ⟨hcivil, -⟩ := (civilSound_iff s).1 h
    rw [civilSound_iff, hassembly, hrules]
    exact ⟨hcivil.congr ⟨rfl, rfl, rfl, rfl⟩, by simp⟩

/-! ### The events -/

theorem event_keepsTime {c : Instr} (hc : sourceOf c = none) (ht : exec c s = .next t) : s.KeepsTime t := by
  cases c <;> simp only [sourceOf, reduceCtorEq] at hc
  case pulse i => exact execPulse_keepsTime i ht
  all_goals obtain rfl := Host.Outcome.next.inj ht
  case powerOnReset pins => exact powerOn_keepsTime pins s
  case keyingStep pins => exact keyingStep_keepsTime pins s
  case assemblyCompletion => exact completeAssembly_keepsTime s
  case missingSecond x => exact takeMissing_keepsTime x s
  case lineFilterChange n => exact takeFilterChange_keepsTime n s
  case flywheelWrap =>
    split
    · exact formWrap_keepsTime s
    · exact .refl s
  case replyComplete l =>
    split
    · split
      · exact softRestartEffect_keepsTime _ _ s
      · exact .of_same (by simp) (by simp) (by simp) (by simp)
    all_goals exact .refl s
  case strobeEnd k => exact .of_same (by simp) (by simp) (by simp) (by simp)
  case byteReceived | characterFault | idle | leadExpiry | tailExpiry | characterInProgressCompleted | risingComplete |
      fallingComplete =>
    repeat' split
    all_goals exact .of_same (by simp) (by simp) (by simp) (by simp)

/-! ### Balance, civil state and windows (R62, R87, R89) -/

variable (rq : Request)

theorem setBalanceAnswer_keepsTime (s : State) : s.KeepsTime (setBalanceAnswer rq s).state := by
  unfold setBalanceAnswer
  split
  · exact .refl s
  · split
    · exact .refl s
    · next hrange =>
      split
      · exact .refl s
      · next hsums =>
        exact .of_timeScale rfl fun h =>
          ⟨h.balance, by simpa [TimeScale.sumBase] using hrange, by simpa [TimeScale.sumBase] using hsums, h.leaps, h.label⟩

theorem setCivilAnswer_keepsTime (s : State) : s.KeepsTime (setCivilAnswer rq s).state := by
  unfold setCivilAnswer
  split
  · exact .refl s
  · split
    · exact .refl s
    · next hrange =>
      split
      · exact .refl s
      · exact .of_civil rfl fun h => ⟨h.transitions, by simpa using hrange, h.leapWindow, h.changeWindow⟩

theorem setWindowsAnswer_keepsTime (s : State) : s.KeepsTime (setWindowsAnswer rq s).state :=
  .of_civil rfl fun h => ⟨h.transitions, h.offset, clamp_bounds _ (by decide), clamp_bounds _ (by decide)⟩

/-! ### The lists (R81, R82, R84, R85) -/

variable {rq}

theorem Request.day_of_leapEntry {e : LeapEntry} (h : rq.leapEntry = some e) : e.day ≤ Config.lastDay := by
  unfold Request.leapEntry at h
  split at h
  · cases h
  · next hspan =>
    obtain ⟨delete, -, rfl⟩ := Option.map_eq_some_iff.1 h
    exact Nat.not_lt.1 hspan

theorem Request.range_of_transition {e : Transition} (h : rq.transition = some e) :
    e.minute ≤ Config.lastMinute ∧ offsetInRange e.offset = true := by
  unfold Request.transition at h
  split at h
  · cases h
  · next hrange =>
    obtain ⟨hspan, hoffset⟩ := not_or.1 hrange
    obtain ⟨summer, -, rfl⟩ := Option.map_eq_some_iff.1 h
    exact ⟨Nat.not_lt.1 hspan, Bool.eq_true_of_not_eq_false hoffset⟩

variable (rq)

theorem addLeapAnswer_keepsTime (s : State) : s.KeepsTime (addLeapAnswer rq s).state := by
  unfold addLeapAnswer
  split
  · exact .refl s
  · next e he =>
    split
    · exact .refl s
    · next hday =>
      split
      · exact .refl s
      · next hroom =>
        split
        · exact .refl s
        · split
          · exact .refl s
          · next hsums =>
            have hfree := any_beq_eq_false.1 (Bool.eq_false_of_not_eq_true hday)
            exact .of_leaps (by simpa using hsums) fun h =>
              h.insert (Nat.not_le.1 hroom) hfree (Request.day_of_leapEntry he)

theorem deleteLeapAnswer_keepsTime (s : State) : s.KeepsTime (deleteLeapAnswer rq s).state := by
  unfold deleteLeapAnswer
  dsimp only
  split
  · exact .refl s
  · split
    · exact .refl s
    · split
      · exact .refl s
      · next hsums => exact .of_leaps (by simpa using hsums) fun h => h.sublist List.filter_sublist

theorem addTransitionAnswer_keepsTime (s : State) : s.KeepsTime (addTransitionAnswer rq s).state := by
  unfold addTransitionAnswer
  split
  · exact .refl s
  · next e he =>
    split
    · exact .refl s
    · split
      · exact .refl s
      · next hfull =>
        obtain ⟨hspan, hoffset⟩ := Request.range_of_transition he
        have hroom : (∃ x ∈ s.rules.transitions, x.minute = e.minute) ∨ s.rules.transitions.length < 16 := by
          rw [← any_beq_eq_true (f := Transition.minute)]
          simp only [Bool.and_eq_true, decide_eq_true_eq, Bool.not_eq_true', not_and, Nat.not_le] at hfull
          exact or_iff_not_imp_left.2 fun hn => hfull (Bool.eq_false_of_not_eq_true hn)
        exact .of_civil rfl fun h => ⟨h.transitions.put hroom hspan hoffset, h.offset, h.leapWindow, h.changeWindow⟩

theorem deleteTransitionAnswer_keepsTime (s : State) : s.KeepsTime (deleteTransitionAnswer rq s).state := by
  unfold deleteTransitionAnswer
  dsimp only
  split
  · exact .refl s
  · split
    · exact .refl s
    · exact .of_civil rfl fun h =>
        ⟨h.transitions.sublist List.filter_sublist, h.offset, h.leapWindow, h.changeWindow⟩

/-! ### Maps, lines and CONTROL (R34, R103, R186) -/

theorem setShadow_keepsTime (s : State) (bank : List MapEntry) :
    s.KeepsTime (s.withAssembler (s.assembler.setShadow bank)) := by
  refine .of_same rfl rfl rfl ?_
  simp only [State.withAssembler_assembler, Assembler.setShadow]
  split <;> rfl

theorem writeMapOwn_keepsTime (s : State) : s.KeepsTime (writeMapOwn rq s).state := by
  unfold writeMapOwn
  dsimp only
  repeat' split
  · exact .refl s
  · exact .refl s
  · exact .refl s
  · exact setShadow_keepsTime ..

theorem copyMapAnswer_keepsTime (s : State) : s.KeepsTime (copyMapAnswer rq s).state := by
  unfold copyMapAnswer
  split
  · exact .refl s
  · exact setShadow_keepsTime ..

theorem writeLinesAnswer_keepsTime (pins : PinIn) (s : State) : s.KeepsTime (writeLinesAnswer pins rq s).state := by
  unfold writeLinesAnswer
  split
  · split
    · exact .refl s
    · unfold applyLineSettings
      refine State.KeepsTime.trans ?_ (noteHalt_keepsTime s _)
      split
      all_goals exact .of_same (by simp) (by simp) (by simp) (by simp)
  · split
    · exact .of_same rfl rfl rfl rfl
    · exact .refl s

theorem controlAnswer_keepsTime (s : State) : s.KeepsTime (controlAnswer rq s).state := by
  by_cases hlen : rq.args.length = 6
  · cases h1 : (if keptPart rq s 0 .carrier then carrierPart (rq.arg 1) s else .ok s) with
    | error r => exact controlAnswer_carrier_refused hlen h1 ▸ .refl s
    | ok s1 =>
      cases h2 : (if keptPart rq s 1 .code then codePart (rq.arg 2) s1 else .ok s1) with
      | error r => exact controlAnswer_code_refused hlen h1 h2 ▸ .refl s
      | ok s2 =>
        rw [controlAnswer_applied hlen h1 h2]
        obtain ⟨c1, rfl⟩ := withCarrier_of_ite carrierPart_withCarrier h1
        obtain ⟨c2, rfl⟩ := withCarrier_of_ite codePart_withCarrier h2
        exact .of_same rfl rfl rfl rfl
  · rw [controlAnswer, if_pos hlen]
    exact .refl s

/-! ### All requests (R26 to R28) -/

theorem blockAnswers_keepsTime {pins : PinIn} {own : Request → State → Answer} (h : own ∈ blockAnswers pins)
    (s : State) : s.KeepsTime (own rq s).state := by
  revert own
  simp only [blockAnswers, List.forall_mem_cons, List.not_mem_nil, IsEmpty.forall_iff, implies_true, and_true,
    setBalanceAnswer_keepsTime, setCivilAnswer_keepsTime, setWindowsAnswer_keepsTime, addLeapAnswer_keepsTime,
    deleteLeapAnswer_keepsTime, addTransitionAnswer_keepsTime, deleteTransitionAnswer_keepsTime, writeMapOwn_keepsTime,
    copyMapAnswer_keepsTime, writeLinesAnswer_keepsTime]
  and_intros
  all_goals
    simp only [setPermissionsAnswer, softRestartAnswer, commitMapAnswer, cancelCommitAnswer, writeTestOwn,
      pushOverrideAnswer, popOverrideAnswer, removeOverrideAnswer, writeProfileAnswer, setRampAnswer, setAssemblySlotAnswer]
    repeat' split
    all_goals exact .of_same rfl rfl rfl rfl

theorem readStatusAnswer_keepsTime (s : State) : s.KeepsTime (readStatusAnswer rq s).state := by
  have hcapture : (captureStatus rq s).state = if rq.wantsReply then s.withFreeDraws (s.freeDraws + 1) else s :=
    readAnswer_state ..
  unfold readStatusAnswer
  split
  · exact .refl s
  · next clear _ =>
    split
    · exact .refl s
    · dsimp only
      rw [hcapture]
      cases clear <;> cases rq.wantsReply <;> exact .of_same rfl rfl rfl rfl

theorem linkAnswers_keepsTime {wire : WireIn} {own : Request → State → Answer} (h : own ∈ linkAnswers wire)
    (s : State) : s.KeepsTime (own rq s).state := by
  revert own
  simp only [linkAnswers, List.forall_mem_cons, List.not_mem_nil, IsEmpty.forall_iff, implies_true, and_true,
    readStatusAnswer_keepsTime]
  and_intros
  all_goals
    simp only [setLinkAnswer, setReturnLimitAnswer, disableLinkAnswer, enableLinkAnswer, setTimebaseAnswer, disableEffect,
      enableEffect]
    repeat' split
    all_goals exact .of_same (by simp) (by simp) (by simp) (by simp)

theorem ownAnswers_keepsTime {pins : PinIn} {wire : WireIn} {own : Request → State → Answer}
    (h : own ∈ ownAnswers pins wire) (s : State) : s.KeepsTime (own rq s).state := by
  simp only [ownAnswers, List.mem_append] at h
  rcases h with hlink | hblock | hread
  · exact linkAnswers_keepsTime rq hlink s
  · exact blockAnswers_keepsTime rq hblock s
  · exact (readAnswers_state hread rq s).symm ▸ .refl s

end

/-- What a step needs to keep both promises (R26 to R28; log 2). -/
theorem keepsTime_stepClosed : StepClosed State.KeepsTime where
  refl := .refl
  trans := .trans
  withPending _ _ := .of_same rfl rfl rfl rfl
  popTaken _ _ := .of_same rfl rfl rfl rfl
  finishTake _ _ := .of_same (by simp) (by simp) (by simp) (by simp)
  event := event_keepsTime
  own h rq s := ownAnswers_keepsTime rq h s
  control := controlAnswer_keepsTime

/-- Settles O51: every command keeps both promises, and taking it from the queue does not touch them. -/
theorem stepKeepsTimeAndCivilState : Obligations.StepKeepsTimeAndCivilState := by
  intro s t ht
  have h := keepsTime_stepClosed.step ht
  exact ⟨h.time, h.civil⟩

end Sys2Proof.Machine

/-! PROOFS. Leap seconds on the label (O34): what a leap entry does at its midnight and in the seconds next to it. -/

namespace Sys2Proof.Machine

section

variable {d c : Nat} {balance : Int} {rest : List LeapEntry}

/-- Entries of later days are not due before the day after this one has begun (R64). -/
theorem applyDue_later (hrest : ∀ e ∈ rest, d < e.day) {count : Int} (h : count - balance ≤ 86400 * ((d : Int) + 1)) :
    applyDue count balance rest = (balance, rest) := by
  cases rest with
  | nil => rfl
  | cons e rest =>
    refine applyDue_not_due rest (Bool.eq_false_of_not_eq_true fun hdue => ?_)
    have hday := hrest e (by simp)
    rw [LeapEntry.due_iff, LeapEntry.midnight, LeapEntry.delta] at hdue
    split at hdue <;> omega

/-- 00:00:00 of the day after a leap day, when the later days' entries are listed: past the span there is no label (R58, R65). -/
theorem labelOf_midnight (hd : d ≤ 36524) (hrest : ∀ e ∈ rest, d < e.day) (count : Nat) (mark : Mark) :
    labelOf (86400 * ((d : Int) + 1)) rest count mark =
      if d = 36524 then none
      else some { day := d + 1, hour := 0, minute := 0, second := 0, inserted := false, u := 86400 * (d + 1), count := count,
                  mark := mark } := by
  have hnormal : labelOf (86400 * ((d : Int) + 1)) rest count mark =
      if inSpan (86400 * ((d : Int) + 1)) then some (splitLabel (86400 * (d + 1)) count mark) else none := by
    have htoNat : (86400 * ((d : Int) + 1)).toNat = 86400 * (d + 1) := by omega
    cases rest with
    | nil => rw [labelOf, htoNat]
    | cons e rest =>
      have hday := hrest e (by simp)
      have hhead : ¬ (e.insert = true ∧ 86400 * ((d : Int) + 1) = e.midnight) := by
        rw [LeapEntry.midnight]
        omega
      rw [labelOf, if_neg hhead, htoNat]
  have hspan : inSpan (86400 * ((d : Int) + 1)) = true ↔ ¬ d = 36524 := by
    rw [inSpan_iff]
    omega
  rw [hnormal]
  by_cases hlast : d = 36524
  · rw [if_neg (fun h => hspan.1 h hlast), if_pos hlast]
  · rw [if_pos (hspan.2 hlast), if_neg hlast, splitLabel_eq, Option.some.injEq, Label.mk.injEq]
    refine ⟨?_, ?_, ?_, ?_, rfl, rfl, rfl, rfl⟩ <;> omega

/-- A boundary without a pending balance, from the due entries and the label (R65). -/
theorem labelBoundary_steady (label : Option Label) (leaps : List LeapEntry) :
    labelBoundary { balance := balance, pendingBalance := none, label := label } leaps (some (c, .none)) =
      ({ balance := (applyDue c balance leaps).1, pendingBalance := none
         label := labelOf ((c : Int) - (applyDue c balance leaps).1) (applyDue c balance leaps).2 c .none },
        (applyDue c balance leaps).2) := by
  simp [labelBoundary, TimeScale.takePending, TimeScale.sumBase]

/-- The boundary at which a leap entry is applied, so that the second beginning is the next day's first (R64, R66, R67). -/
theorem labelBoundary_applied {e : LeapEntry} (hd : e.day ≤ 36524) (hrest : ∀ x ∈ rest, e.day < x.day)
    (hc : (c : Int) - balance = e.midnight + e.delta) (label : Option Label) :
    labelBoundary { balance := balance, pendingBalance := none, label := label } (e :: rest) (some (c, .none)) =
      ({ balance := balance + e.delta, pendingBalance := none
         label := if e.day = 36524 then none
           else some { day := e.day + 1, hour := 0, minute := 0, second := 0, inserted := false, u := 86400 * (e.day + 1),
                       count := c, mark := .none } },
        rest) := by
  have huniform : (c : Int) - (balance + e.delta) = 86400 * ((e.day : Int) + 1) := by
    rw [LeapEntry.midnight] at hc
    omega
  have happlied : applyDue c balance (e :: rest) = (balance + e.delta, rest) := by
    rw [applyDue_due rest ((LeapEntry.due_iff e c balance).2 hc.ge), applyDue_later hrest huniform.le]
  rw [labelBoundary_steady, happlied, huniform, labelOf_midnight hd hrest]

/-- The boundary of an inserted second: its entry stays at the head, and the label is 23:59:60 (R64, R66). -/
theorem labelBoundary_inserted {e : LeapEntry} (hinsert : e.insert = true) (hd : e.day ≤ 36524)
    (hc : (c : Int) - balance = e.midnight) (label : Option Label) :
    labelBoundary { balance := balance, pendingBalance := none, label := label } (e :: rest) (some (c, .none)) =
      ({ balance := balance, pendingBalance := none
         label := some { day := e.day, hour := 23, minute := 59, second := 60, inserted := true,
                         u := 86400 * (e.day + 1) - 1, count := c, mark := .none } },
        e :: rest) := by
  have hdue : e.due c balance = false := by
    refine Bool.eq_false_of_not_eq_true fun h => ?_
    rw [LeapEntry.due_iff, hc, LeapEntry.delta, if_pos hinsert] at h
    omega
  have hspan : inSpan (e.midnight - 1) = true := by
    rw [inSpan_iff, LeapEntry.midnight]
    omega
  have hu : (e.midnight - 1).toNat = 86400 * (e.day + 1) - 1 := by
    rw [LeapEntry.midnight]
    omega
  rw [labelBoundary_steady, applyDue_not_due rest hdue]
  dsimp only
  rw [hc, labelOf, if_pos ⟨hinsert, rfl⟩, if_pos hspan, hu]
  rfl

end

/-- Settles O34: the inserted second keeps its entry at the head; the second after it, and the one that a DELETE leaves out, apply
the entry. -/
theorem leapSecondsAreLabelled : Obligations.LeapSecondsAreLabelled := by
  intro balance label d c rest hd hrest unit midnight
  refine ⟨fun hc => ⟨?inserted, ?afterInsert⟩, fun hc => ?deleted⟩
  case inserted => exact labelBoundary_inserted (e := { day := d, insert := true }) rfl hd hc label
  case afterInsert =>
    refine labelBoundary_applied (e := { day := d, insert := true }) hd hrest ?_ label
    simp only [LeapEntry.midnight, LeapEntry.delta, if_true]
    omega
  case deleted =>
    refine labelBoundary_applied (e := { day := d, insert := false }) hd hrest ?_ label
    simp only [LeapEntry.midnight, LeapEntry.delta, Bool.false_eq_true, if_false]
    omega

end Sys2Proof.Machine

/-! PROOFS. The calendar (O35, O36): year and day of year, month and day of month, and weekday of a civil day (R71 to R73). -/

namespace Sys2Proof.Machine

/-! ### The weekday (R73) -/

theorem weekdayOf_eq (d : Int) : (weekdayOf d : Int) = (d + 5) % 7 + 1 := by
  unfold weekdayOf
  omega

/-- Settles O36: the weekdays follow each other from the one of day 0. -/
theorem weekdayOfDay : Obligations.WeekdayOfDay := by
  refine ⟨fun d => ?_, rfl, rfl, rfl⟩
  have hday := weekdayOf_eq d
  have hnext := weekdayOf_eq (d + 1)
  omega

/-! ### The day of year (R71) -/

/-- Year, day of year and kind of year make up the day number, counted year by year (R71). -/
structure IsDayOfYear (d : Int) (year yday : Nat) (leap : Bool) : Prop where
  span : 1999 ≤ year ∧ year ≤ 2100
  kind : leap = true ↔ year % 4 = 0
  within : yday < 365 + leap.toNat
  number : 365 * ((year : Int) - 2000) + ((year : Int) - 1997) / 4 + yday = d

theorem yearAndDay_spec {d : Int} (hlow : -1 ≤ d) (hhigh : d ≤ 36525) :
    ∃ year yday leap, yearAndDay d = (year, yday, leap) ∧ IsDayOfYear d year yday leap := by
  unfold yearAndDay
  split
  · exact ⟨_, _, _, rfl, by decide, by decide, by decide, by omega⟩
  · dsimp only
    split
    · refine ⟨_, _, _, rfl, ?_, ?_, ?_, ?_⟩
      · omega
      · simp only [true_iff]
        omega
      · simp only [Bool.toNat_true]
        omega
      · omega
    · refine ⟨_, _, _, rfl, ?_, ?_, ?_, ?_⟩
      · omega
      · simp only [Bool.false_eq_true, false_iff]
        omega
      · simp only [Bool.toNat_false]
        omega
      · omega

/-! ### The month (R72) -/

/-- The days of a year before month n, counted from 0; before month 12, the days of the year. -/
def monthStart (leap : Bool) (n : Nat) : Nat :=
  (if leap then monthStartsLeap else monthStartsCommon).getD n (365 + leap.toNat)

theorem monthStart_succ_le : ∀ leap : Bool, ∀ n < 12, monthStart leap (n + 1) ≤ monthStart leap n + 31 := by decide

/-- Month n, counted from 0, is the one in which the day of year lies (R72). -/
structure IsMonthOf (leap : Bool) (yday n : Nat) : Prop where
  month : n < 12
  begun : monthStart leap n ≤ yday
  within : yday < monthStart leap (n + 1)

theorem IsMonthOf.mday_le {leap : Bool} {yday n : Nat} (h : IsMonthOf leap yday n) :
    yday - monthStart leap n + 1 ≤ 31 := by
  have hlength := monthStart_succ_le leap n h.month
  have hwithin := h.within
  omega

/-- The entries of an increasing list up to a bound are its first ones. -/
theorem filter_le_eq_take {xs : List Nat} (h : xs.Pairwise (· < ·)) (y : Nat) :
    ∃ n ≤ xs.length, xs.filter (· ≤ y) = xs.take n ∧ (∀ x ∈ xs.take n, x ≤ y) ∧ ∀ x ∈ xs.drop n, y < x := by
  induction xs with
  | nil => exact ⟨0, by simp⟩
  | cons x rest ih =>
    obtain ⟨hx, hrest⟩ := List.pairwise_cons.1 h
    by_cases hle : x ≤ y
    · obtain ⟨n, hn, hfilter, htake, hdrop⟩ := ih hrest
      exact ⟨n + 1, Nat.succ_le_succ hn, by simp [hle, hfilter], by simpa [hle] using htake, hdrop⟩
    · have hlater : ∀ z ∈ x :: rest, y < z := by
        intro z hz
        rcases List.mem_cons.1 hz with rfl | hz
        · omega
        · have := hx z hz
          omega
      refine ⟨0, Nat.zero_le _, ?_, by simp, hlater⟩
      rw [List.take_zero, List.filter_eq_nil_iff]
      intro z hz
      have := hlater z hz
      simpa using this

/-- The month found is the one whose days reach to the day of year (R72). -/
theorem monthAndDay_spec {leap : Bool} {yday : Nat} (h : yday < 365 + leap.toNat) :
    ∃ n, IsMonthOf leap yday n ∧ monthAndDay leap yday = (n + 1, yday - monthStart leap n + 1) := by
  generalize hstarts : (if leap then monthStartsLeap else monthStartsCommon) = starts
  have hlength : starts.length = 12 := by subst hstarts; cases leap <;> rfl
  have hsorted : starts.Pairwise (· < ·) := by subst hstarts; cases leap <;> decide
  have hfirst : starts.take 1 = [0] := by subst hstarts; cases leap <;> rfl
  have hstart (n : Nat) : monthStart leap n = starts.getD n (365 + leap.toNat) := by rw [← hstarts, monthStart]
  obtain ⟨n, hn, hfilter, htake, hdrop⟩ := filter_le_eq_take hsorted yday
  have hpos : n ≠ 0 := by
    rintro rfl
    have hmem : 0 ∈ starts.drop 0 := List.mem_of_mem_take (hfirst ▸ List.mem_singleton_self 0)
    exact Nat.not_lt_zero _ (hdrop 0 hmem)
  obtain ⟨k, rfl⟩ := Nat.exists_eq_succ_of_ne_zero hpos
  have hk : k < starts.length := hn
  have hlast : starts.take (k + 1) = starts.take k ++ [starts[k]] := List.take_succ_eq_append_getElem hk
  have hthis : monthStart leap k = starts[k] := by rw [hstart, List.getD_eq_getElem _ _ hk]
  refine ⟨k, ⟨hlength ▸ hk, ?begun, ?within⟩, ?found⟩
  case found =>
    have hlastD : (starts.take (k + 1)).getLastD 0 = starts[k] := by rw [hlast, List.getLastD_concat]
    rw [monthAndDay, hstarts, hfilter, hlastD, List.length_take_of_le hn, hthis]
  case begun =>
    rw [hthis]
    exact htake _ (hlast ▸ List.mem_append_right _ (List.mem_singleton_self _))
  case within =>
    rw [hstart]
    by_cases hnext : k + 1 < starts.length
    · rw [List.getD_eq_getElem _ _ hnext]
      exact hdrop _ (List.mem_drop_iff_getElem.2 ⟨0, by simpa using hnext, rfl⟩)
    · rwa [List.getD_eq_default _ _ (Nat.not_lt.1 hnext)]

/-- The months before month n have as many days as its start says (R72). -/
theorem daysBefore_month {year n mday : Nat} {leap : Bool} (hn : n < 12) (hleap : leap = true ↔ year % 4 = 0) :
    daysBefore year (n + 1) mday =
      365 * ((year : Int) - 2000) + ((year : Int) - 1997) / 4 + monthStart leap n + ((mday : Int) - 1) := by
  rw [daysBefore]
  congr 2
  cases leap with
  | true =>
    rw [if_pos (hleap.1 rfl)]
    revert n
    decide
  | false =>
    rw [if_neg (fun h => by simpa using hleap.2 h)]
    revert n
    decide

/-- The days before the year after a year (R71). -/
theorem daysBefore_newYear {year : Nat} {leap : Bool} (hleap : leap = true ↔ year % 4 = 0) :
    daysBefore (year + 1) 1 1 = 365 * ((year : Int) - 2000) + ((year : Int) - 1997) / 4 + monthStart leap 12 := by
  have hlength : monthStart leap 12 = 365 + leap.toNat := by cases leap <;> rfl
  simp only [daysBefore, List.range_zero, List.map_nil, List.sum_nil, Nat.sub_self, hlength]
  cases leap with
  | true => simp only [Bool.toNat_true, true_iff] at hleap ⊢; omega
  | false => simp only [Bool.toNat_false, Bool.false_eq_true, false_iff] at hleap ⊢; omega

/-! ### The date -/

/-- The date found for a day: the year that the day lies in, and the month of its day of year (R71, R72). -/
theorem dateOf_spec {d : Int} (hlow : -1 ≤ d) (hhigh : d ≤ 36525) :
    ∃ year yday leap n, IsDayOfYear d year yday leap ∧ IsMonthOf leap yday n ∧
      dateOf d = { year := year, month := n + 1, mday := yday - monthStart leap n + 1 } := by
  obtain ⟨year, yday, leap, hyear, hday⟩ := yearAndDay_spec hlow hhigh
  obtain ⟨n, hmonth, hfound⟩ := monthAndDay_spec hday.within
  exact ⟨year, yday, leap, n, hday, hmonth, by simp only [dateOf, hyear, hfound]⟩

/-- Settles O35: the days before the date and before the month after it are the sums of years and months. -/
theorem calendarIsExact : Obligations.CalendarIsExact := by
  intro d hlow hhigh
  obtain ⟨year, yday, leap, n, ⟨⟨hfirst, hlast⟩, hleap, -, hday⟩, hmonth, hdate⟩ := dateOf_spec hlow hhigh
  have hn := hmonth.month
  have hbegun := hmonth.begun
  have hwithin := hmonth.within
  rw [hdate]
  dsimp only
  refine ⟨?number, hfirst, hlast, Nat.le_add_left 1 n, hn, Nat.le_add_left 1 _, hmonth.mday_le, ?next⟩
  case number =>
    rw [daysBefore_month hn hleap]
    omega
  case next =>
    split
    · next hdecember =>
      obtain rfl : n = 11 := Nat.succ.inj hdecember
      have hyear : yday < monthStart leap 12 := hwithin
      rw [daysBefore_newYear hleap]
      omega
    · rw [daysBefore_month (n := n + 1) (by omega) hleap]
      omega

end Sys2Proof.Machine

/-! PROOFS. Field values and their weights (O37): the weights set in a value add up to it, in binary and digit by digit (R75, R77,
R97). -/

namespace Sys2Proof.Machine

/-! ### Weights (R77) -/

/-- The multiples of the powers of 2 that stand for the ONE bits of a number add up to that multiple of it. -/
theorem sum_filter_powers {p : Nat → Bool} {scale n k : Nat}
    (hp : ∀ i < k, p (scale * 2 ^ i) = decide (n / 2 ^ i % 2 = 1)) (hn : n < 2 ^ k) :
    (((List.range k).map (scale * 2 ^ ·)).filter p).sum = scale * n := by
  have lowBits : ∀ j ≤ k, (((List.range j).map (scale * 2 ^ ·)).filter p).sum = scale * (n % 2 ^ j) := by
    intro j hj
    induction j with
    | zero => simp [Nat.mod_one]
    | succ j ih =>
      rw [List.range_succ, List.map_append, List.filter_append, List.sum_append, ih (by omega), List.map_singleton,
        List.filter_singleton, hp j hj, Nat.mod_pow_succ, Nat.mul_add, Nat.add_left_cancel_iff]
      rcases Nat.mod_two_eq_zero_or_one (n / 2 ^ j) with h | h <;> simp [h]
  rw [lowBits k le_rfl, Nat.mod_eq_of_lt hn]

/-- A value below 2^k in binary (R77). -/
theorem sum_filter_binaryWeight {v k : Nat} (h : v < 2 ^ k) :
    (((List.range k).map (1 * 2 ^ ·)).filter (binaryWeight v)).sum = v := by
  rw [sum_filter_powers (fun i _ => by rw [Nat.one_mul]; rfl) h, Nat.one_mul]

/-- A value as BCD whose tens digit is below 2^k (R77). -/
theorem sum_filter_bcdWeight {v k : Nat} (h : v / 10 < 2 ^ k) :
    (((List.range 4).map (1 * 2 ^ ·) ++ (List.range k).map (10 * 2 ^ ·)).filter (bcdWeight v)).sum = v := by
  have units (i : Nat) (hi : i < 4) : bcdWeight v (1 * 2 ^ i) = decide (v % 10 / 2 ^ i % 2 = 1) := by
    have hlow : 2 ^ i < 10 := (Nat.pow_le_pow_right (by decide) (Nat.le_of_lt_succ hi)).trans_lt (by decide)
    rw [Nat.one_mul, bcdWeight, if_pos hlow]
  have tens (i : Nat) (_ : i < k) : bcdWeight v (10 * 2 ^ i) = decide (v / 10 / 2 ^ i % 2 = 1) := by
    have hhigh : ¬ 10 * 2 ^ i < 10 := Nat.not_lt.2 (Nat.le_mul_of_pos_right 10 (Nat.two_pow_pos i))
    rw [bcdWeight, if_neg hhigh, Nat.mul_div_cancel_left _ (by decide)]
  rw [List.filter_append, List.sum_append, sum_filter_powers units (by omega), sum_filter_powers tens h]
  omega

/-- The weights that give ONE are the valid ones that the field's value sets. -/
theorem filter_fieldBit {v : FieldValues} {field : Nat} {p : Nat → Bool}
    (h : ∀ w, fieldBit v field w = (decide (w ∈ validWeights field) && p w)) :
    (validWeights field).filter (fieldBit v field) = (validWeights field).filter p :=
  List.filter_congr fun w hw => by rw [h, decide_eq_true hw, Bool.true_and]

/-- The field values read from their weights (R77, R97): the ranges are those that the fields' weights can spell. -/
theorem spelled_fields {v : FieldValues} (hminute : v.minute < 80) (hhour : v.hour < 40) (hmday : v.mday < 40)
    (hwday : v.wday < 8) (hmonth : v.month < 20) (hyear : v.year < 160) (hoffset : v.offset.natAbs < 64) :
    let spelled (field : Nat) : Nat := ((validWeights field).filter (fieldBit v field)).sum
    spelled 0 = v.minute ∧ spelled 1 = v.hour ∧ spelled 2 = v.mday ∧ spelled 3 = v.wday ∧ spelled 4 = v.month ∧
      spelled 5 = v.year ∧ spelled 6 = v.offset.natAbs := by
  intro spelled
  have read {field : Nat} {p : Nat → Bool} (h : ∀ w, fieldBit v field w = (decide (w ∈ validWeights field) && p w)) :
      spelled field = ((validWeights field).filter p).sum := congrArg List.sum (filter_fieldBit h)
  refine ⟨?_, ?_, ?_, ?_, ?_, ?_, ?_⟩
  · exact (read fun _ => rfl).trans (sum_filter_bcdWeight (k := 3) (by omega))
  · exact (read fun _ => rfl).trans (sum_filter_bcdWeight (k := 2) (by omega))
  · exact (read fun _ => rfl).trans (sum_filter_bcdWeight (k := 2) (by omega))
  · exact (read fun _ => rfl).trans (sum_filter_binaryWeight (k := 3) hwday)
  · exact (read fun _ => rfl).trans (sum_filter_bcdWeight (k := 1) (by omega))
  · exact (read fun _ => rfl).trans (sum_filter_bcdWeight (k := 4) (by omega))
  · exact (read fun _ => rfl).trans (sum_filter_binaryWeight (k := 6) hoffset)

/-! ### The fields (R74, R75) -/

/-- The date's fields lie in their ranges. -/
theorem dateOf_bounds {d : Int} (hlow : -1 ≤ d) (hhigh : d ≤ 36525) : (dateOf d).month ≤ 12 ∧ (dateOf d).mday ≤ 31 := by
  obtain ⟨_, _, _, _, -, hmonth, hdate⟩ := dateOf_spec hlow hhigh
  rw [hdate]
  exact ⟨hmonth.month, hmonth.mday_le⟩

/-- Settles O37: the values are the civil time's by definition, and lie within what their weights can spell. -/
theorem weightsSpellTheFields : Obligations.WeightsSpellTheFields := by
  intro t offset spare hlow hhigh hmin hmax v c spelled
  have hhour : v.hour = (c % 1440).toNat / 60 := rfl
  have hminute : v.minute = (c % 1440).toNat % 60 := rfl
  have hc : -720 < c ∧ c < 1440 * 36526 := by omega
  obtain ⟨hmonth, hmday⟩ : v.month ≤ 12 ∧ v.mday ≤ 31 := dateOf_bounds (d := c / 1440) (by omega) (by omega)
  have hyear : v.year < 100 := Nat.mod_lt _ (by decide)
  have hwday : (v.wday : Int) = (c / 1440 + 5) % 7 + 1 := weekdayOf_eq _
  have hoffset : v.offset.natAbs < 64 := by
    change offset.natAbs < 64
    omega
  obtain ⟨h0, h1, h2, h3, h4, h5, h6⟩ := spelled_fields (v := v) (by omega) (by omega) (by omega) (by omega) (by omega)
    (by omega) hoffset
  refine ⟨by omega, by omega, by omega, rfl, rfl, rfl, rfl, rfl, rfl, h0, h1, h2, h3, h4, h5, h6, ?sign, ?spare⟩
  case sign => simp [fieldBit, validWeights, v, fieldValues]
  case spare =>
    intro k hk
    have hvalid : k ∈ validWeights 8 := List.mem_range.2 hk
    rw [fieldBit, decide_eq_true hvalid, Bool.true_and]
    rfl

end Sys2Proof.Machine

/-! PROOFS. The words and the minute of the label (O53): a state that meets the invariant, and the wrap after which it does not
(R64, R66, R126). -/

namespace Sys2Proof.Machine

/-- 00:00:00 of day 1, a normal second. -/
def firstMidnight : Label :=
  { day := 1, hour := 0, minute := 0, second := 0, inserted := false, u := 86400, count := 86400, mark := .none }

/-- The label is 00:00:00 of day 1 while the INSERT of day 0 is still listed, and the wrap of the keying step is due. -/
def midnightBeforeInsert : State :=
  { State.reset with
    timebase := { State.reset.timebase with count := some 86400, wrapDue := true }
    timeScale := { State.reset.timeScale with label := some firstMidnight }
    rules := { State.reset.rules with leaps := [{ day := 0, insert := true }] }
    pending := [.flywheelWrap] }

/-- The assembly of the word of minute 1441 is in progress as well. -/
def assemblingAtMidnight : State := startAssembly firstMidnight midnightBeforeInsert

theorem assemblingAtMidnight_time : TimeSound assemblingAtMidnight := by decide

theorem assemblingAtMidnight_words : WordsSound assemblingAtMidnight := by
  refine ⟨?map, ?shadow, ?committed, ?test, ?onStack, ?view, ?pending, ?current, ?setting, ?setting', ?inForce, ?inForce',
    ?depth, ?entries, ?marks⟩ <;> decide

theorem assemblingAtMidnight_minute : MinuteSound assemblingAtMidnight := by decide

/-- The wrap applies the INSERT, so that the next second is 00:00:00 of day 1 once more, and its slot 0 hands over the word of
the next minute (R64, R126). -/
theorem assemblingAtMidnight_step :
    ∃ t, step assemblingAtMidnight = .next t ∧
      t.timeScale.label = some { firstMidnight with count := 86401 } ∧
      t.assembler.current.map (·.word.transmitted) = some 1441 := ⟨_, rfl, by decide, by decide⟩

/-- Refutes O53: the hypotheses ask that an inserted second has its INSERT at the head, and not that the second of a listed INSERT
is labelled as inserted. So they admit 00:00:00 of day 1 as a normal second with the INSERT of day 0 still ahead. A boundary
with that entry at the head labels the second 23:59:60 (labelOf), so no boundary leaves such a state; but from it the wrap
repeats 00:00:00 and puts the next minute's word on air in this one. -/
theorem not_stepKeepsWordsInTheirMinute : ¬ Obligations.StepKeepsWordsInTheirMinute := by
  intro h
  obtain ⟨t, hstep, hlabel, hcurrent⟩ := assemblingAtMidnight_step
  obtain ⟨-, hminute⟩ := h _ t assemblingAtMidnight_time assemblingAtMidnight_words assemblingAtMidnight_minute hstep
  obtain ⟨-, -, -, -, -, hword⟩ := hminute _ hlabel
  obtain ⟨cw, hcw, htransmitted⟩ := Option.map_eq_some_iff.1 hcurrent
  obtain ⟨hlate, -⟩ := hword cw hcw
  exact absurd (htransmitted.symm.trans hlate) (by decide)

end Sys2Proof.Machine

/-! PROOFS. The LATE tests and the requests on the two lists (O23): what each answers when its checks pass (R79 to R85). -/

namespace Sys2Proof.Machine

/-! ### The LATE tests (R80) -/

section

variable {s : State} {m : Nat}

theorem late_iff_of_lateRef {r : Nat} (h : s.rules.lateRef = some r) :
    (leapLate s m = true ↔ m ≤ r) ∧ (transitionLate s m = true ↔ m ≤ r + 1) := by
  simp [leapLate, transitionLate, h]

theorem transitionLate_of_no_lateRef (h : s.rules.lateRef = none) : transitionLate s m = false := by
  simp [transitionLate, h]

theorem leapLate_iff_of_label {c : Nat} {lab : Label} (h : s.rules.lateRef = none) (hc : s.timebase.count = some c)
    (hlab : s.timeScale.label = some lab) : leapLate s m = true ↔ m ≤ lab.u / 60 := by
  have hlate : leapLate s m = (timeValid s && decide (m ≤ lab.u / 60)) := by
    simp only [leapLate, h, hlab]
    rfl
  have htime : timeValid s = true := by rw [timeValid, hc]; rfl
  rw [hlate, htime, Bool.true_and, decide_eq_true_iff]

theorem leapLate_of_no_time (h : s.rules.lateRef = none) (hc : s.timebase.count = none) : leapLate s m = false := by
  have htime : timeValid s = false := by rw [timeValid, hc]; rfl
  unfold leapLate
  rw [h]
  cases s.timeScale.label with
  | none => rfl
  | some lab => simp [htime]

end

/-! ### The four requests (R81, R82, R84, R85) -/

section

variable {rq : Request} {s : State}

theorem Request.transition_of_codes {summer : Bool} (hm : rq.num4 0 ≤ 52595999) (hlow : -48 ≤ rq.signed 4)
    (hhigh : rq.signed 4 ≤ 56) (hb : boolOf (rq.arg 5) = some summer) :
    rq.transition = some { minute := rq.num4 0, offset := rq.signed 4, summer := summer } := by
  have hin : offsetInRange (rq.signed 4) = true := by simp [offsetInRange, hlow, hhigh]
  have hminute : ¬ Config.lastMinute < rq.num4 0 := Nat.not_lt.2 hm
  rw [Request.transition, hb, hin, if_neg (by simp [hminute])]
  rfl

/-- An entry of a free day, not late, joins a list with room whose sums it keeps in range (R81). -/
theorem addLeapAnswer_of_entry {e : LeapEntry} (he : rq.leapEntry = some e) (hfree : ∀ x ∈ s.rules.leaps, x.day ≠ e.day)
    (hroom : s.rules.leaps.length < 4) (hlate : leapLate s e.leapMinute = false)
    (hsums : sumsInRange s.timeScale.sumBase (insertLeap e s.rules.leaps) = true) :
    addLeapAnswer rq s = carriedOut false (s.withRules { s.rules with leaps := insertLeap e s.rules.leaps }) := by
  simp [addLeapAnswer, he, any_beq_eq_false.2 hfree, Nat.not_le.2 hroom, hlate, hsums]

/-- The entry of a listed day, not late, leaves a list whose sums stay in range without it (R82). -/
theorem deleteLeapAnswer_of_listed (hlisted : ∃ x ∈ s.rules.leaps, x.day = rq.num2 0)
    (hlate : leapLate s (1440 * rq.num2 0 + 1439) = false)
    (hsums : sumsInRange s.timeScale.sumBase (withoutDay (rq.num2 0) s.rules.leaps) = true) :
    deleteLeapAnswer rq s =
      carriedOut false (s.withRules { s.rules with leaps := withoutDay (rq.num2 0) s.rules.leaps }) := by
  obtain ⟨e, he, hday⟩ := find_leap_of_day hlisted
  have hminute : leapLate s e.leapMinute = false := by rw [LeapEntry.leapMinute, hday, hlate]
  simp [deleteLeapAnswer, he, hminute, hsums]

/-- A transition that is not late replaces the one at its minute, or joins a list with room (R84). -/
theorem addTransitionAnswer_of_entry {e : Transition} (he : rq.transition = some e) (hlate : transitionLate s e.minute = false)
    (hroom : (∃ x ∈ s.rules.transitions, x.minute = e.minute) ∨ s.rules.transitions.length < 16) :
    addTransitionAnswer rq s =
      carriedOut false (s.withRules { s.rules with transitions := putTransition e s.rules.transitions }) := by
  have hplace : (!s.rules.transitions.any (·.minute == e.minute) && decide (16 ≤ s.rules.transitions.length)) = false := by
    rcases hroom with hlisted | hroom
    · rw [any_beq_eq_true.2 hlisted]
      rfl
    · rw [decide_eq_false (Nat.not_le.2 hroom), Bool.and_false]
  simp only [addTransitionAnswer, he, hlate, hplace, Bool.false_eq_true, if_false]

/-- The transition at a listed minute that is not late leaves its list (R85). -/
theorem deleteTransitionAnswer_of_listed (hlisted : ∃ x ∈ s.rules.transitions, x.minute = rq.num4 0)
    (hlate : transitionLate s (rq.num4 0) = false) :
    deleteTransitionAnswer rq s =
      carriedOut false (s.withRules
        { s.rules with transitions := withoutMinute (rq.num4 0) s.rules.transitions }) := by
  simp [deleteTransitionAnswer, any_beq_eq_true.2 hlisted, hlate]

theorem withoutMinute_eq_filter (minute : Nat) (ts : List Transition) :
    withoutMinute minute ts = ts.filter (·.minute ≠ minute) :=
  List.filter_congr fun _ _ => Bool.eq_iff_iff.2 (by simp)

end

/-- Settles O23: each request from its answer, and each list from where an entry joins or leaves it. -/
theorem listRequestsTakeEffect : Obligations.ListRequestsTakeEffect := by
  refine ⟨fun s m => ⟨fun r h => late_iff_of_lateRef h, fun h => ⟨transitionLate_of_no_lateRef h,
    fun c lab hc hlab => leapLate_iff_of_label h hc hlab, leapLate_of_no_time h⟩⟩, ?_⟩
  intro src s rq s1
  refine ⟨?addLeap, ?deleteLeap, ?addTransition, ?deleteTransition⟩
  case addLeap =>
    intro delete htakes hlen hperm hday hcode e he hfree hroom hlate horder leaps hsums
    have hentry : rq.leapEntry = some e := Request.leapEntry_eq_some hday (by rw [he]) (by rw [hcode, he, Bool.not_not])
    have hplace : insertLeap e s1.rules.leaps = leaps := insertLeap_eq e _ horder hfree
    have hanswer := addLeapAnswer_of_entry (s := s1) hentry hfree hroom hlate (hplace ▸ hsums)
    rw [hplace] at hanswer
    exact congrArg _ ((take_checked htakes addLeapAnswer hlen hperm).trans (congrArg _ hanswer))
  case deleteLeap =>
    intro htakes hlen hperm hlisted hlate leaps hsums
    have hleft : withoutDay (rq.num2 0) s1.rules.leaps = leaps := withoutDay_eq_filter _ _
    have hanswer := deleteLeapAnswer_of_listed (s := s1) hlisted hlate (hleft ▸ hsums)
    rw [hleft] at hanswer
    exact congrArg _ ((take_checked htakes deleteLeapAnswer hlen hperm).trans (congrArg _ hanswer))
  case addTransition =>
    intro summer htakes hlen hperm hminute hlow hhigh hcode hlate hroom horder e he
    have hentry : rq.transition = some e := he ▸ Request.transition_of_codes hminute hlow hhigh hcode
    subst he
    have hanswer := addTransitionAnswer_of_entry (s := s1) hentry hlate hroom
    rw [putTransition_eq _ s1.rules.transitions horder] at hanswer
    exact congrArg _ ((take_checked htakes addTransitionAnswer hlen hperm).trans (congrArg _ hanswer))
  case deleteTransition =>
    intro htakes hlen hperm hlisted hlate
    have hanswer := deleteTransitionAnswer_of_listed (s := s1) hlisted hlate
    rw [withoutMinute_eq_filter] at hanswer
    exact congrArg _ ((take_checked htakes deleteTransitionAnswer hlen hperm).trans (congrArg _ hanswer))

end Sys2Proof.Machine

/-! PROOFS. Announcements and leap hints (O38), each condition from the lists it is read from (R90, R91, R93, R94). -/

namespace Sys2Proof.Machine

/-! ### Announcements (R90, R91) -/

section

variable {r : RuleLists} {t : Nat}

/-- In a list in order the first transition ahead decides, since the others lie further ahead (R90). -/
theorem chgAnn_iff (ho : r.transitions.Pairwise (·.minute < ·.minute)) :
    chgAnn r t = true ↔ ∃ e ∈ r.transitions, t < e.minute ∧ e.minute ≤ t + r.changeWindow := by
  have hmem (e : Transition) : e ∈ laterTransitions t r.transitions ↔ e ∈ r.transitions ∧ t < e.minute := by
    simp [laterTransitions]
  have hlater : (laterTransitions t r.transitions).Pairwise (·.minute < ·.minute) := ho.filter _
  simp only [← and_assoc, ← hmem]
  unfold chgAnn
  cases h : laterTransitions t r.transitions with
  | nil => simp
  | cons e rest =>
    rw [h, List.pairwise_cons] at hlater
    obtain ⟨hfirst, -⟩ := hlater
    simp only [decide_eq_true_eq, List.exists_mem_cons_iff]
    refine ⟨Or.inl, ?_⟩
    rintro (hwindow | ⟨x, hx, hwindow⟩)
    · exact hwindow
    · exact (hfirst x hx).le.trans hwindow

/-- The head alone announces (R91). -/
theorem leapAnn_iff :
    leapAnn r t = true ↔
      ∃ e, r.leaps.head? = some e ∧ t ≤ e.leapMinute ∧ e.leapMinute < t + r.leapWindow := by
  unfold leapAnn
  cases r.leaps with
  | nil => simp
  | cons e rest =>
    simp only [Bool.and_eq_true, decide_eq_true_eq, List.head?_cons, Option.some.injEq, exists_eq_left']
    omega

theorem leapNeg_iff :
    leapNeg r t = true ↔ leapAnn r t = true ∧ ∃ e, r.leaps.head? = some e ∧ e.insert = false := by
  rw [leapNeg, Bool.and_eq_true]
  cases r.leaps with
  | nil => simp
  | cons e rest => simp

end

/-! ### Leap hints (R93, R94) -/

/-- A frame's day is the head's when the head inserts that very second, and the day of its second number otherwise (R93). -/
theorem frameDay_eq {leaps : List LeapEntry} {uniform : Int} {day : Nat}
    (hinserted : ∀ e, leaps.head? = some e → e.insert = true → uniform = e.midnight → day = e.day)
    (hnormal : (∀ e, leaps.head? = some e → e.insert = true → uniform ≠ e.midnight) → day = (uniform / 86400).toNat) :
    frameDay leaps uniform = day := by
  unfold frameDay
  split
  · next e rest =>
    simp only [List.head?_cons, Option.some.injEq, forall_eq'] at hinserted hnormal
    split
    · next h => exact (hinserted h.1 h.2).symm
    · next h => exact (hnormal fun hi hu => h ⟨hi, hu⟩).symm
  · exact (hnormal (by simp)).symm

theorem hintMatches_iff (leaps : List LeapEntry) (day : Nat) (hint : LeapHint) :
    hintMatches leaps day hint = true ↔
      hint = .none ∨ (hint = .insertToday ∧ ∃ e ∈ leaps, e.day = day ∧ e.insert = true) ∨
        (hint = .deleteToday ∧ ∃ e ∈ leaps, e.day = day ∧ e.insert = false) := by
  cases hint <;> simp [hintMatches]

/-- A hint that matches, or is a mismatch of a day already noted, changes nothing; any other mismatch is noted (R94). -/
theorem checkHint_eq (f : EpochFrame) (s : State) :
    checkHint f s =
      let day := frameDay s.rules.leaps ((f.count : Int) - s.timeScale.balance)
      if hintMatches s.rules.leaps day f.hint = true ∨ s.rules.lastMismatch = some day then s
      else
        (s.withRules { s.rules with lastMismatch := some day }).withStatus { s.status with leapMismatch := true } := by
  simp [checkHint]

/-- Settles O38: the first transition ahead and the head of the leap list decide, and a hint is noted when its day's entry does not
match it and the day is not noted yet. -/
theorem announcementsAndHints : Obligations.AnnouncementsAndHints := by
  refine ⟨fun r t ho => ⟨chgAnn_iff ho, leapAnn_iff, leapNeg_iff⟩, ?_⟩
  intro f s day hinserted hnormal known
  have hday : frameDay s.rules.leaps ((f.count : Int) - s.timeScale.balance) = day := frameDay_eq hinserted hnormal
  have hknown := hintMatches_iff s.rules.leaps day f.hint
  rw [checkHint_eq, hday]
  simp only [hknown]
  exact ⟨fun h => if_pos h, fun hk hm => if_neg (not_or.2 ⟨hk, hm⟩)⟩

end Sys2Proof.Machine

/-! PROOFS. The assembly (O39): its start and view, the boundary at which it starts, and its completion (R80, R110, R114, R115,
R117, R121, R131). -/

namespace Sys2Proof.Machine

/-! ### The view's bank and length (R110, R121) -/

/-- The bank bit turns over when a commit is pending (R110). -/
theorem swapIfPending_active1 (a : Assembler) : a.swapIfPending.active1 = (a.active1 ^^ a.commitPending) := by
  unfold Assembler.swapIfPending
  cases a.commitPending <;> simp

theorem wordLength_eq_61 {leaps : List LeapEntry} {n : Nat} :
    wordLength leaps n = 61 ↔ ∃ e ∈ leaps, e.insert = true ∧ e.leapMinute = n := by
  have hinsert : leaps.any (fun e => e.insert && e.leapMinute == n) = true ↔
      ∃ e ∈ leaps, e.insert = true ∧ e.leapMinute = n := by simp
  rw [← hinsert, wordLength]
  split
  · next h => simp [h]
  · next h =>
    split <;> simp [h]

theorem wordLength_eq_59 {leaps : List LeapEntry} {n : Nat} :
    wordLength leaps n = 59 ↔ (∃ e ∈ leaps, e.insert = false ∧ e.leapMinute = n) ∧
      ∀ e ∈ leaps, e.insert = true → e.leapMinute ≠ n := by
  have hinsert : leaps.any (fun e => e.insert && e.leapMinute == n) = false ↔
      ∀ e ∈ leaps, e.insert = true → e.leapMinute ≠ n := by simp
  have hdelete : leaps.any (fun e => !e.insert && e.leapMinute == n) = true ↔
      ∃ e ∈ leaps, e.insert = false ∧ e.leapMinute = n := by simp
  rw [← hinsert, ← hdelete, wordLength]
  split
  · next h => simp [h]
  · next h =>
    split
    · next hd => simp [h, hd]
    · next hd => simp [hd]

theorem wordLength_eq_60 {leaps : List LeapEntry} {n : Nat} (h : ∀ e ∈ leaps, e.leapMinute ≠ n) :
    wordLength leaps n = 60 := by
  have hinsert : ¬ leaps.any (fun e => e.insert && e.leapMinute == n) = true := by simpa using fun e he _ => h e he
  have hdelete : ¬ leaps.any (fun e => !e.insert && e.leapMinute == n) = true := by simpa using fun e he _ => h e he
  rw [wordLength, if_neg hinsert, if_neg hdelete]

/-! ### The boundary at which an assembly starts (R114, R115, R131) -/

section

variable (lab : Label) (s : State)

/-- The words at a boundary touch, besides the words themselves, the slot in force, which second 0 copies from its setting,
and the late reference (R114, R126, R127, R129). -/
theorem assemblerWords_frame :
    (assemblerWords lab s).stack = s.stack ∧ (assemblerWords lab s).timebase = s.timebase ∧
    (assemblerWords lab s).rules = { s.rules with lateRef := (assemblerWords lab s).rules.lateRef } ∧
    (assemblerWords lab s).assembler =
      { s.assembler with
        current := (assemblerWords lab s).assembler.current
        pendingWord := (assemblerWords lab s).assembler.pendingWord
        slotInForce := if lab.second = 0 then s.assembler.slotSetting else s.assembler.slotInForce } := by
  have dropped : ∃ s1 : State, s1 = (if lab.mark = .none then s else dropWords s) ∧ s1.stack = s.stack ∧
      s1.timebase = s.timebase ∧ s1.rules = { s.rules with lateRef := s1.rules.lateRef } ∧
      s1.assembler = { s.assembler with current := s1.assembler.current, pendingWord := s1.assembler.pendingWord } := by
    refine ⟨_, rfl, ?_⟩
    split
    · exact ⟨rfl, rfl, rfl, rfl⟩
    · simp [dropWords_rules, dropWords_assembler]
  obtain ⟨s1, hs1, hstack, htimebase, hrules, hassembler⟩ := dropped
  unfold assemblerWords
  rw [← hs1]
  dsimp only
  split
  · refine ⟨by simpa using hstack, by simpa using htimebase, by simpa using hrules, ?_⟩
    rw [handOver_assembler, copySlot_assembler, hassembler]
  · refine ⟨by simpa using hstack, by simpa using htimebase, by simpa using hrules, ?_⟩
    rw [beginSlot_assembler, hassembler]

/-- The assembly starts in the slot in force, in every minute but the span's last (R115, R131). -/
abbrev AssemblyStarts : Prop :=
  lab.u / 60 ≠ 52595999 ∧ lab.second = if lab.second = 0 then s.assembler.slotSetting else s.assembler.slotInForce

variable {lab s}

theorem assemblerBoundary_starts (h : AssemblyStarts lab s) :
    assemblerBoundary (some lab) s = startAssembly lab (assemblerWords lab s) := by
  obtain ⟨-, -, -, hassembler⟩ := assemblerWords_frame lab s
  obtain ⟨hminute, hsecond⟩ := h
  rw [assemblerBoundary_some, if_pos ⟨hsecond.trans (by rw [hassembler]), hminute⟩]

theorem assemblerBoundary_waits (h : ¬ AssemblyStarts lab s) :
    assemblerBoundary (some lab) s = assemblerWords lab s := by
  obtain ⟨-, -, -, hassembler⟩ := assemblerWords_frame lab s
  rw [assemblerBoundary_some]
  refine if_neg ?_
  rintro ⟨hsecond, hminute⟩
  rw [hassembler] at hsecond
  exact h ⟨hminute, hsecond⟩

end

/-! ### The completion (R117) -/

/-- At a completion the minutes of the due transitions leave the list, and the view's civil state is taken over (R117). -/
theorem applyTransitions_eq (v : View) (r : RuleLists) :
    applyTransitions v r =
      if v.due = [] then r
      else
        { r with
          transitions := r.transitions.filter (fun e => v.due.all (·.minute ≠ e.minute))
          offset := v.offset, summer := v.summer } := by
  have hleft (e : Transition) : (!v.due.any (·.minute == e.minute)) = v.due.all (·.minute ≠ e.minute) := by
    rw [Bool.eq_iff_iff]
    simp
  simp only [applyTransitions, List.isEmpty_iff, hleft]

/-- Settles O39: the start reads the view from the state with its commit taken, the boundary hands it the state that the words
leave, and the completion applies the view. -/
theorem assemblyTakesAndBuildsTheView : Obligations.AssemblyTakesAndBuildsTheView := by
  refine ⟨fun lab s => ?start, fun label s => ?boundary, fun s v hv => ?completion⟩
  case start =>
    intro t due
    obtain ⟨htest, hspare, hselection, -, -, -, -, -, hbank0, hbank1, hcommit⟩ := swapIfPending_fields s.assembler
    refine ⟨hcommit, swapIfPending_active1 _, hbank0, hbank1, rfl, rfl, _, rfl, rfl, rfl, rfl, rfl, rfl, ?_, htest, rfl, ?_,
      rfl, rfl, rfl, wordLength_eq_61, wordLength_eq_59, wordLength_eq_60⟩
    · exact congrArg (fieldValues _ _) hspare
    · exact congrArg (mergedProfile · s.stack) hselection
  case boundary =>
    intro t starts
    refine ⟨fun lab hlabel hstarts => ?_, fun hwaits => ?_⟩
    · subst hlabel
      obtain ⟨hstack, htimebase, hrules, hassembler⟩ := assemblerWords_frame lab s
      obtain ⟨hcurrent, hpending, -⟩ := assemblerBoundary_words lab s
      refine ⟨_, assemblerBoundary_starts hstarts, hstack, htimebase, hrules, ?_⟩
      rw [hcurrent, hpending]
      refine hassembler.trans ?_
      rw [← hstarts.2]
    · cases label with
      | none =>
        have hstack : t.stack = s.stack := by simp [t, assemblerBoundary]
        have hassembler : t.assembler = _ := assemblerBoundary_none s
        refine ⟨?_, hstack, ?_, ?_⟩ <;> rw [hassembler]
      | some lab =>
        obtain ⟨hstack, -, -, hassembler⟩ := assemblerWords_frame lab s
        have ht : t = assemblerWords lab s := assemblerBoundary_waits (hwaits lab rfl)
        rw [ht]
        refine ⟨?_, hstack, ?_, ?_⟩ <;> rw [hassembler]
  case completion =>
    show Host.Outcome.next (completeAssembly s) = _
    rw [completeAssembly_of_some hv, applyTransitions_eq]
    rfl

end Sys2Proof.Machine

/-! PROOFS. The map banks: the seven checks one by one and in their order, and the requests on the shadow and on the commit (O24,
O25; R103 to R109). -/

namespace Sys2Proof.Machine

/-! ### The validation checks (R107) -/

/-- The kind of the entry at a position of a bank. -/
abbrev kindAt (bank : List MapEntry) (i : Nat) : Option MapKind := (bank[i]?).map (·.kind)

/-- Whether a bank passes the check of a number; numbers that name no check are passed. -/
def passesCheck (bank : List MapEntry) : Nat → Bool
  | 1 => kindAt bank 0 == some .mark
  | 2 => kindAt bank 59 == some .nil
  | 3 => kindAt bank 60 == some .const0 || kindAt bank 60 == some .const1 || kindAt bank 60 == some .nil
  | 4 => bank.all (·.namesValid)
  | 5 => bank.all fun e => e.kind.joins || e.members == 0
  | 6 => bank.all (·.parityFed bank)
  | 7 => bank.all (·.groupsLow)
  | _ => true

/-- The model's cascade is the search for the first check that fails. -/
theorem firstFailingCheck_eq_find (bank : List MapEntry) :
    firstFailingCheck bank = (List.range 8).find? (!passesCheck bank ·) := by
  have hrange : List.range 8 = [0, 1, 2, 3, 4, 5, 6, 7] := rfl
  have cascade {failed : Prop} [Decidable failed] {n : Nat} {rest : Option Nat} {later : List Nat}
      (hn : (!passesCheck bank n) = true ↔ failed) (hrest : rest = later.find? (!passesCheck bank ·)) :
      (if failed then some n else rest) = (n :: later).find? (!passesCheck bank ·) := by
    rw [hrest, List.find?_cons, if_congr hn.symm rfl rfl]
    cases passesCheck bank n <;> rfl
  rw [hrange, List.find?_cons_of_neg (by simp [passesCheck])]
  unfold firstFailingCheck
  dsimp only
  refine cascade ?mark (cascade ?nil (cascade ?insert (cascade ?names (cascade ?members (cascade ?fed (cascade ?low ?none))))))
  case none => rfl
  all_goals simp [passesCheck, and_assoc]

theorem firstFailingCheck_eq_some_iff {bank : List MapEntry} {n : Nat} :
    firstFailingCheck bank = some n ↔ passesCheck bank n = false ∧ ∀ k < n, passesCheck bank k = true := by
  have hlast (h : passesCheck bank n = false) : n < 8 := by
    by_contra hn
    obtain ⟨m, rfl⟩ := Nat.exists_eq_add_of_le' (Nat.not_lt.1 hn)
    cases h
  rw [firstFailingCheck_eq_find, List.find?_range_eq_some]
  simp only [Bool.not_eq_true', List.mem_range, Bool.not_not]
  exact ⟨fun ⟨hfails, _, hbefore⟩ => ⟨hfails, hbefore⟩, fun ⟨hfails, hbefore⟩ => ⟨hfails, hlast hfails, hbefore⟩⟩

theorem firstFailingCheck_eq_none_iff {bank : List MapEntry} :
    firstFailingCheck bank = none ↔ ∀ n, passesCheck bank n = true := by
  constructor
  · intro h n
    induction n using Nat.strong_induction_on with
    | _ n before =>
      refine Bool.eq_true_of_not_eq_false fun hfails => ?_
      rw [firstFailingCheck_eq_some_iff.2 ⟨hfails, before⟩] at h
      cases h
  · intro h
    rw [firstFailingCheck_eq_find, List.find?_eq_none]
    simp [h]

/-! ### What each check asks -/

theorem MapEntry.namesValid_iff (e : MapEntry) :
    e.namesValid = true ↔
      (e.kind = .field → e.weight.toNat ∈ validWeights e.code.toNat) ∧ (e.kind = .flag → e.code.toNat ≤ 4) := by
  unfold MapEntry.namesValid
  cases e.kind <;> simp [Nat.lt_succ_iff]

theorem MapKind.joins_eq_false_iff (k : MapKind) : k.joins = false ↔ k = .parity ∨ k = .mark ∨ k = .nil := by
  cases k <;> simp [MapKind.joins]

theorem MapEntry.parityFed_iff (bank : List MapEntry) (e : MapEntry) :
    e.parityFed bank = true ↔
      (e.kind = .parity → ∃ i < 59, ∃ m, bank[i]? = some m ∧ m.memberOf e.parityGroup = true) := by
  have hmember : (∃ m ∈ bank.take 59, m.memberOf e.parityGroup = true) ↔
      ∃ i < 59, ∃ m, bank[i]? = some m ∧ m.memberOf e.parityGroup = true := by
    simp only [List.mem_iff_getElem?, List.getElem?_take, Option.ite_none_right_eq_some]
    tauto
  rw [← hmember]
  simp [MapEntry.parityFed, imp_iff_not_or]

theorem MapEntry.groupsLow_iff (e : MapEntry) :
    e.groupsLow = true ↔ (e.kind = .parity → e.parityGroup ≤ 7) ∧ ∀ g ∈ e.memberGroups, g ≤ 7 := by
  simp [MapEntry.groupsLow, imp_iff_not_or]

theorem passesCheck_members_iff (bank : List MapEntry) :
    passesCheck bank 5 = true ↔ ∀ e ∈ bank, e.kind = .parity ∨ e.kind = .mark ∨ e.kind = .nil → e.members = 0 := by
  simp [passesCheck, ← MapKind.joins_eq_false_iff, imp_iff_not_or]

/-! ### WRITE_MAP, COPY_MAP, COMMIT_MAP and CANCEL_COMMIT taken (R104, R105, R107 to R109) -/

/-- Only the bank that the indicator does not name is replaced (R95). -/
theorem Assembler.setShadow_eq (a : Assembler) (bank : List MapEntry) :
    a.setShadow bank =
      { a with bank0 := if a.active1 then bank else a.bank0, bank1 := if a.active1 then a.bank1 else bank } := by
  unfold Assembler.setShadow
  split <;> rfl

/-- The active bank copied over the shadow stands in both banks (R105). -/
theorem setShadow_activeBank (a : Assembler) :
    (a.setShadow a.activeBank).bank0 = a.activeBank ∧ (a.setShadow a.activeBank).bank1 = a.activeBank := by
  rw [Assembler.setShadow_eq]
  unfold Assembler.activeBank
  cases a.active1 <;> exact ⟨rfl, rfl⟩

section

variable {rq : Request} {s : State}

/-- Entries that fit from their start position on go into the shadow (R104). -/
theorem writeMapOwn_of_entries {entries : List MapEntry} (hpending : s.assembler.commitPending = false)
    (hcount : 1 ≤ rq.num 1) (hfits : rq.num 0 + rq.num 1 ≤ 61) (hentries : entriesOf (rq.args.drop 2) = some entries) :
    writeMapOwn rq s = carriedOut false
      (s.withAssembler (s.assembler.setShadow (writeEntries s.assembler.shadowBank (rq.num 0) entries))) := by
  have hrange : ¬(rq.num 1 = 0 ∨ 61 < rq.num 0 + rq.num 1) := by omega
  simp only [writeMapOwn, hpending, hrange, hentries, Bool.false_eq_true, if_false]

/-- A request of the right length brings as many entries as its count says (R104). -/
theorem entries_length_of_count {entries : List MapEntry} (hlen : rq.args.length = 2 + 4 * rq.num 1)
    (hentries : entriesOf (rq.args.drop 2) = some entries) : entries.length = rq.num 1 := by
  have hbytes := entriesOf_length hentries
  rw [List.length_drop, hlen] at hbytes
  omega

theorem commitMapAnswer_of_passes (hpending : s.assembler.commitPending = false)
    (hpass : firstFailingCheck s.assembler.shadowBank = none) :
    commitMapAnswer rq s = carriedOut false (s.withAssembler { s.assembler with commitPending := true }) := by
  simp [commitMapAnswer, hpending, hpass]

theorem commitMapAnswer_of_fails {n : Nat} (hpending : s.assembler.commitPending = false)
    (hfails : firstFailingCheck s.assembler.shadowBank = some n) :
    commitMapAnswer rq s = refuse (.validation n) s := by
  simp [commitMapAnswer, hpending, hfails]

end

/-- Settles O24: the checks one by one, and each request from its answer. -/
theorem mapRequestsTakeEffect : Obligations.MapRequestsTakeEffect := by
  refine ⟨fun bank => ?checks, fun src s rq => ⟨?write, ?commit, ?cancel⟩⟩
  case checks =>
    intro kindAt holds
    have hholds : ∀ n, passesCheck bank n = true ↔ holds n
      | 0 => by simp [passesCheck, holds]
      | 1 | 2 => beq_iff_eq
      | 3 => by simp [passesCheck, holds, kindAt, or_assoc]
      | 4 => by simp [passesCheck, holds, MapEntry.namesValid_iff]
      | 5 => passesCheck_members_iff bank
      | 6 => by simp [passesCheck, holds, MapEntry.parityFed_iff]
      | 7 => by simp [passesCheck, holds, MapEntry.groupsLow_iff]
      | n + 8 => by simp [passesCheck, holds]
    simp only [← hholds, Bool.not_eq_true]
    exact ⟨firstFailingCheck_eq_none_iff, fun n => firstFailingCheck_eq_some_iff⟩
  case write =>
    intro entries htakes hlen hperm hpending hcount hfits hentries hbank0 hbank1
    have hshadow : s.assembler.shadowBank.length = 61 := by
      unfold Assembler.shadowBank
      split <;> assumption
    have hnum := entries_length_of_count hlen hentries
    have hroom : rq.num 0 + entries.length ≤ s.assembler.shadowBank.length := by omega
    refine ⟨writeEntries s.assembler.shadowBank (rq.num 0) entries, ?_, fun i _ => ?_, ?_⟩
    · rw [writeEntries_length _ _ _ hroom, hshadow]
    · rw [writeEntries_get _ _ _ hroom, hnum]
    · have hanswer := writeMapOwn_of_entries (s := popTaken src s) hpending hcount hfits hentries
      show Host.Outcome.next (takeNamed 0x10 writeMapAnswer src s) = _
      rw [takeNamed_of_takes htakes, writeMapAnswer, if_neg (not_not.2 hlen), permitted_popTaken, htakes.src, hperm,
        hanswer]
      rfl
  case commit =>
    intro htakes hlen hperm hpending
    have htaken := take_checked htakes commitMapAnswer hlen hperm
    refine ⟨fun hpass => ?_, fun n hfails => ?_⟩
    · exact congrArg _ (htaken.trans (congrArg _ (commitMapAnswer_of_passes (s := popTaken src s) hpending hpass)))
    · exact congrArg _ (htaken.trans (congrArg _ (commitMapAnswer_of_fails (s := popTaken src s) hpending hfails)))
  case cancel =>
    intro htakes hlen hperm hpending
    have hanswer : cancelCommitAnswer rq (popTaken src s) = _ := if_pos hpending
    exact congrArg _ ((take_checked htakes cancelCommitAnswer hlen hperm).trans (congrArg _ hanswer))

/-- Settles O25: the answer by the commit-pending flag; what becomes of the shadow leaves the active bank. -/
theorem copyMapCopiesActiveToShadow : Obligations.CopyMapCopiesActiveToShadow := by
  intro src s rq htakes hlen hperm s1
  have htaken := take_checked htakes copyMapAnswer hlen hperm
  refine ⟨fun hpending => ?_, fun hpending => ⟨s.assembler.setShadow s.assembler.activeBank, ?_, ?_⟩⟩
  · have hanswer : copyMapAnswer rq s1 = refuse .pending s1 := if_pos hpending
    exact congrArg _ (htaken.trans (congrArg _ hanswer))
  · have hanswer : copyMapAnswer rq s1 = carriedOut false (s1.withAssembler (s.assembler.setShadow s.assembler.activeBank)) :=
      if_neg (by simp [s1, hpending])
    exact congrArg _ (htaken.trans (congrArg _ hanswer))
  · obtain ⟨hbank0, hbank1⟩ := setShadow_activeBank s.assembler
    exact ⟨hbank0, hbank1, hbank0.trans hbank1.symm, Assembler.active1_setShadow .., Assembler.activeBank_setShadow ..,
      by rw [Assembler.setShadow_eq]⟩

end Sys2Proof.Machine

/-! PROOFS. Words (O40): the entries that a word carries, its symbols by the kind of each entry, and its parities (R101, R119 to
R124). -/

namespace Sys2Proof.Machine

/-! ### Lists laid out by positions -/

section

variable {α : Type} {xs : List α} {ps : List Nat}

/-- With every position in the list, each place holds the element at its position. -/
theorem getElem?_filterMap_positions (h : ∀ p ∈ ps, p < xs.length) (i : Nat) :
    (ps.filterMap (xs[·]?))[i]? = ps[i]?.bind (xs[·]?) := by
  induction ps generalizing i with
  | nil => rfl
  | cons p rest ih =>
    obtain ⟨hp, hrest⟩ := List.forall_mem_cons.1 h
    rw [List.filterMap_cons_some (List.getElem?_eq_getElem hp)]
    cases i with
    | zero => simp [hp]
    | succ i => simpa using ih hrest i

theorem length_filterMap_positions (h : ∀ p ∈ ps, p < xs.length) : (ps.filterMap (xs[·]?)).length = ps.length := by
  induction ps with
  | nil => rfl
  | cons p rest ih =>
    obtain ⟨hp, hrest⟩ := List.forall_mem_cons.1 h
    rw [List.filterMap_cons_some (List.getElem?_eq_getElem hp), List.length_cons, ih hrest, List.length_cons]

/-- Counted by place or by element. -/
theorem length_filter_range_any (xs : List α) (p : α → Bool) :
    ((List.range xs.length).filter fun i => xs[i]?.any p).length = xs.countP p := by
  induction xs with
  | nil => rfl
  | cons x rest ih =>
    rw [List.length_cons, List.range_succ_eq_map, List.filter_cons, List.filter_map, List.countP_cons, ← ih]
    cases hx : p x <;> simp [hx, Function.comp_def]

end

/-! ### The tail rule (R101) -/

section

variable {n : Nat}

theorem tailPositions_length (h : MinuteLength n) : (tailPositions n).length = n := by
  rcases h with rfl | rfl | rfl <;> simp [tailPositions]

theorem tailPositions_lt (h : MinuteLength n) : ∀ p ∈ tailPositions n, p < 61 := by
  rcases h with rfl | rfl | rfl <;> decide

/-- The last slot holds position 59, slot 59 of 61 the insert position, and every other slot its own (R101). -/
theorem tailPositions_getElem? (h : MinuteLength n) {i : Nat} (hi : i < n) :
    (tailPositions n)[i]? = some (if n = 61 ∧ i = 59 then 60 else if i + 1 = n then 59 else i) := by
  have hslots : ∀ n ∈ [59, 60, 61], ∀ i < n,
      (tailPositions n)[i]? = some (if n = 61 ∧ i = 59 then 60 else if i + 1 = n then 59 else i) := by decide
  exact hslots n (by simpa using h) i hi

end

/-! ### Maps and test records on air (R107, R124) -/

theorem MapOnAir.last_nil {bank : List MapEntry} (h : MapOnAir bank) : ∃ e, bank[59]? = some e ∧ e.kind = .nil := by
  obtain ⟨-, hpass⟩ := h
  simpa [passesCheck] using firstFailingCheck_eq_none_iff.1 hpass 2

theorem testRecordFault_eq_none_iff (record : List Symbol) :
    testRecordFault record = none ↔ record[0]? = some .mark ∧ record[59]? = some .nil := by
  unfold testRecordFault
  split
  · next hmark => simp [hmark]
  · next hmark =>
    rw [not_not.1 hmark]
    simp

/-! ### The symbols of a word (R119 to R124) -/

section

variable {v : View}

theorem View.content_of_test (h : v.wordKind = .test) : v.content = .test := by
  unfold View.wordKind at h
  split at h
  · cases h
  · split at h
    · cases h
    · assumption
    · cases h

theorem View.Sound.carried_length (h : v.Sound) : (carriedEntries v.map v.length).length = v.length := by
  obtain ⟨⟨hmap, -⟩, hlength, -⟩ := h
  rw [carriedEntries, length_filterMap_positions (hmap ▸ tailPositions_lt hlength), tailPositions_length hlength]

theorem View.Sound.testSymbols_length (h : v.Sound) (hk : v.wordKind = .test) :
    (testSymbols v.test v.length).length = v.length := by
  obtain ⟨-, hlength, htest⟩ := h
  obtain ⟨hrecord, -⟩ := htest (View.content_of_test hk)
  have hpositions : ∀ p ∈ tailPositions v.length, p < (v.test ++ [Symbol.zero]).length := by
    simpa [hrecord] using tailPositions_lt hlength
  rw [testSymbols, length_filterMap_positions hpositions, tailPositions_length hlength]

/-- A TEST word is the record, with ZERO in the insert position and the record's last symbol in the last slot (R124). -/
theorem View.Sound.testSymbols_getElem? (h : v.Sound) (hk : v.wordKind = .test) {i : Nat} (hi : i < v.length) :
    (testSymbols v.test v.length)[i]? =
      if v.length = 61 ∧ i = 59 then some .zero else if i + 1 = v.length then v.test[59]? else v.test[i]? := by
  obtain ⟨-, hlength, htest⟩ := h
  obtain ⟨hrecord, -⟩ := htest (View.content_of_test hk)
  have hpositions : ∀ p ∈ tailPositions v.length, p < (v.test ++ [Symbol.zero]).length := by
    simpa [hrecord] using tailPositions_lt hlength
  rw [testSymbols, getElem?_filterMap_positions hpositions, tailPositions_getElem? hlength hi, Option.bind_some]
  split
  · rw [List.getElem?_append_right (by omega), hrecord]
    rfl
  · split
    · rw [List.getElem?_append_left (by omega)]
    · rw [List.getElem?_append_left (by omega)]

theorem View.wordSymbols_of_blank (h : v.wordKind = .suspended ∨ v.wordKind = .silent) :
    v.wordSymbols = List.replicate v.length .nil := by
  unfold View.wordSymbols
  rcases h with h | h <;> rw [h]

theorem View.wordSymbols_of_test (h : v.wordKind = .test) : v.wordSymbols = testSymbols v.test v.length := by
  unfold View.wordSymbols
  rw [h]

theorem View.wordSymbols_of_coded (h : v.wordKind = .coded) :
    v.wordSymbols = (carriedEntries v.map v.length).map
      (entrySymbol v.fields v.flags (carriedEntries v.map v.length)) := by
  unfold View.wordSymbols
  rw [h]
  rfl

theorem View.Sound.wordSymbols_length (h : v.Sound) : v.wordSymbols.length = v.length := by
  cases hk : v.wordKind with
  | coded => rw [View.wordSymbols_of_coded hk, List.length_map, h.carried_length]
  | test => rw [View.wordSymbols_of_test hk, h.testSymbols_length hk]
  | silent => rw [View.wordSymbols_of_blank (.inr hk), List.length_replicate]
  | suspended => rw [View.wordSymbols_of_blank (.inl hk), List.length_replicate]

/-- Every word ends in NIL (R119): position 59 of the map and of the test record is NIL, and stands in the last slot. -/
theorem View.Sound.wordSymbols_last (h : v.Sound) : v.wordSymbols.getLast? = some .nil := by
  obtain ⟨hmap, hlength, htest⟩ := id h
  have hpos : v.length - 1 < v.length := by rcases hlength with hl | hl | hl <;> omega
  have hlast : v.length - 1 + 1 = v.length := Nat.sub_add_cancel (Nat.one_le_of_lt hpos)
  have hinsert : ¬(v.length = 61 ∧ v.length - 1 = 59) := by omega
  rw [List.getLast?_eq_getElem?, h.wordSymbols_length]
  have blank (hk : v.wordKind = .suspended ∨ v.wordKind = .silent) : v.wordSymbols[v.length - 1]? = some .nil := by
    rw [View.wordSymbols_of_blank hk, List.getElem?_replicate, if_pos hpos]
  cases hk : v.wordKind with
  | coded =>
    obtain ⟨e, he, hnil⟩ := hmap.last_nil
    rw [View.wordSymbols_of_coded hk, List.getElem?_map, carriedEntries,
      getElem?_filterMap_positions (hmap.1 ▸ tailPositions_lt hlength), tailPositions_getElem? hlength hpos, if_neg hinsert,
      if_pos hlast, Option.bind_some, he, Option.map_some, entrySymbol, hnil]
    simp [plainSymbol, hnil]
  | test =>
    obtain ⟨-, hrecord⟩ := htest (View.content_of_test hk)
    rw [View.wordSymbols_of_test hk, h.testSymbols_getElem? hk hpos, if_neg hinsert, if_pos hlast,
      ((testRecordFault_eq_none_iff _).1 hrecord).2]
  | silent => exact blank (.inr hk)
  | suspended => exact blank (.inl hk)

/-- A word built from a sound view is sound (R119). -/
theorem View.Sound.buildWord (h : v.Sound) : (buildWord v).Sound := by
  obtain ⟨-, hlength, -⟩ := id h
  exact ⟨hlength, h.wordSymbols_length, h.wordSymbols_last⟩

end

/-! ### The parities of a CODED word (R99, R123) -/

section

variable {fv : FieldValues} {flags : CodeFlags} {carried : List MapEntry} {e : MapEntry} {g : Nat}

/-- Only an entry of kind PARITY is computed from others (R122). -/
theorem entrySymbol_of_plain (h : e.kind ≠ .parity) : entrySymbol fv flags carried e = plainSymbol fv flags e := by
  unfold entrySymbol
  split
  · contradiction
  all_goals rfl

/-- A member of a group is no PARITY entry (R99). -/
theorem MapEntry.plain_of_memberOf (h : e.memberOf g = true) : e.kind ≠ .parity := by
  intro hk
  simp [MapEntry.memberOf, hk, MapKind.joins] at h

/-- The symbols that a word sends for a group's members are the ones that its PARITY symbol counts (R123). -/
theorem countP_entrySymbol (fv : FieldValues) (flags : CodeFlags) (carried : List MapEntry) (g : Nat) :
    carried.countP (fun e => e.memberOf g && entrySymbol fv flags carried e == .one) = groupOnes fv flags carried g := by
  refine List.countP_congr fun e _ => ?_
  simp only [Bool.and_eq_true]
  exact and_congr_right fun h => by rw [entrySymbol_of_plain (MapEntry.plain_of_memberOf h)]

/-- A PARITY symbol makes its group even, or odd by its sense (R123). -/
theorem parity_of_entrySymbol (h : e.kind = .parity) :
    (groupOnes fv flags carried e.parityGroup + (if entrySymbol fv flags carried e = .one then 1 else 0)) % 2 =
      if e.parityOdd then 1 else 0 := by
  have hsymbol : entrySymbol fv flags carried e =
      bitSymbol ((groupOnes fv flags carried e.parityGroup % 2 == 1) != e.parityOdd) := by
    unfold entrySymbol
    rw [h]
  rw [hsymbol]
  generalize groupOnes fv flags carried e.parityGroup = ones
  rcases Nat.mod_two_eq_zero_or_one ones with hones | hones <;> cases e.parityOdd <;>
    simp [hones, bitSymbol, Nat.add_mod]

end

/-- The entry's flag has the value that its code gives it (R98). -/
theorem CodeFlags.value_of_mem {f : CodeFlags} {code : Nat} {value : Bool}
    (h : (code, value) ∈ [(0, f.leapAnn), (1, f.leapNeg), (2, f.chgAnn), (3, f.summer), (4, f.holdover)]) :
    f.value code = value := by
  simp only [List.mem_cons, Prod.mk.injEq, List.not_mem_nil, or_false] at h
  rcases h with ⟨rfl, rfl⟩ | ⟨rfl, rfl⟩ | ⟨rfl, rfl⟩ | ⟨rfl, rfl⟩ | ⟨rfl, rfl⟩ <;> rfl

/-- Settles O40: the word's symbols by its kind, and in a CODED word by the entry of each slot. -/
theorem wordsKeepLengthAndParity : Obligations.WordsKeepLengthAndParity := by
  intro v h w carried
  refine ⟨h.buildWord, rfl, rfl, rfl, rfl, fun hk x hx => ?blank, fun hk i hi => ?test, fun hk => ?coded⟩
  case blank =>
    have hsymbols : w.symbols = List.replicate v.length .nil := View.wordSymbols_of_blank hk
    rw [hsymbols] at hx
    exact List.eq_of_mem_replicate hx
  case test =>
    have hsymbols : w.symbols = testSymbols v.test v.length := View.wordSymbols_of_test hk
    rw [hsymbols]
    exact h.testSymbols_getElem? hk hi
  case coded =>
    have hsymbols : w.symbols = carried.map (entrySymbol v.fields v.flags carried) := View.wordSymbols_of_coded hk
    have hlength : carried.length = v.length := h.carried_length
    refine ⟨hlength, fun i e he => ?_⟩
    have hslot : w.symbols[i]? = some (entrySymbol v.fields v.flags carried e) := by
      rw [hsymbols, List.getElem?_map, he, Option.map_some]
    have plain {k : MapKind} (hkind : e.kind = k) (hk : k ≠ .parity) {x : Symbol}
        (hx : plainSymbol v.fields v.flags e = x) : w.symbols[i]? = some x := by
      rw [hslot, entrySymbol_of_plain (hkind ▸ hk), hx]
    refine ⟨fun hkind => ?mark, fun hkind => ?nil, fun hkind => ?const0, fun hkind => ?const1, fun hkind value hvalue => ?flag,
      fun hkind => ?field, fun hkind => ?parity⟩
    case mark | nil | const0 | const1 | field =>
      exact plain hkind (by decide) (by simp only [plainSymbol, hkind, bitSymbol])
    case flag =>
      exact plain hkind (by decide) (by simp only [plainSymbol, hkind, bitSymbol, CodeFlags.value_of_mem hvalue])
    case parity =>
      have hones : ((List.range v.length).filter fun j =>
          carried[j]?.any (·.memberOf e.parityGroup) && w.symbols[j]? == some .one).length =
            groupOnes v.fields v.flags carried e.parityGroup := by
        rw [← countP_entrySymbol, ← length_filter_range_any, hlength, hsymbols]
        refine congrArg List.length (List.filter_congr fun j _ => ?_)
        rw [List.getElem?_map]
        cases carried[j]? <;> simp
      rw [hones, hslot]
      simpa using parity_of_entrySymbol hkind

end Sys2Proof.Machine

/-! PROOFS. Every step keeps banks, words and stack sound (O52): first what of it is about the assembler's banks and words and the
stack, operation by operation; then the boundary, the events and the requests (R103 to R110, R114 to R131, R134 to R143). -/

namespace Sys2Proof.Machine

/-- The promises of banks, words and stack, for an assembler and a stack (R108, R110, R119, R136, R142). -/
structure CodeSound (a : Assembler) (stack : List OverrideEntry) : Prop where
  active : MapOnAir a.activeBank
  shadow : a.shadowBank.length = 61
  committed : a.commitPending = true → firstFailingCheck a.shadowBank = none
  test : a.test.length = 60
  guarded : hasTestEntry stack = true → testRecordFault a.test = none
  view : ∀ v ∈ a.assembly, v.Sound
  pendingWord : ∀ w ∈ a.pendingWord, w.Sound ∧ w.broken = false
  current : ∀ cw ∈ a.current, cw.word.Sound
  setting : 30 ≤ a.slotSetting ∧ a.slotSetting ≤ 57
  inForce : 30 ≤ a.slotInForce ∧ a.slotInForce ≤ 57
  depth : stack.length ≤ 4
  entries : ∀ e ∈ stack, e.Sound
  marks : a.assembly = none → ∀ e ∈ stack, e.mark = false

theorem forall_mem_none {α : Type} {p : α → Prop} : ∀ x ∈ (none : Option α), p x := nofun

theorem wordsSound_iff (s : State) : WordsSound s ↔ CodeSound s.assembler s.stack := by
  constructor
  · rintro ⟨hactive, hshadow, hcommitted, htest, hguarded, hview, hpending, hcurrent, hset, hset', hslot, hslot', hdepth,
      hentries, hmarks⟩
    exact ⟨hactive, hshadow, hcommitted, htest, hguarded, hview, hpending, hcurrent, ⟨hset, hset'⟩, ⟨hslot, hslot'⟩, hdepth,
      hentries, hmarks⟩
  · rintro ⟨hactive, hshadow, hcommitted, htest, hguarded, hview, hpending, hcurrent, ⟨hset, hset'⟩, ⟨hslot, hslot'⟩, hdepth,
      hentries, hmarks⟩
    exact ⟨hactive, hshadow, hcommitted, htest, hguarded, hview, hpending, hcurrent, hset, hset', hslot, hslot', hdepth,
      hentries, hmarks⟩

section

variable {s t : State}

theorem WordsSound.code (h : WordsSound s) : CodeSound s.assembler s.stack := (wordsSound_iff s).1 h

theorem CodeSound.words (h : CodeSound s.assembler s.stack) : WordsSound s := (wordsSound_iff s).2 h

/-- A state with another assembler that keeps the promises with its stack. -/
theorem WordsSound.of_assembler {a : Assembler} (ha : t.assembler = a) (hs : t.stack = s.stack) (h : CodeSound a s.stack) :
    WordsSound t := by rwa [wordsSound_iff, ha, hs]

/-- The promises are about assembler and stack alone. -/
theorem WordsSound.congr (h : WordsSound s) (ha : t.assembler = s.assembler) (hs : t.stack = s.stack) : WordsSound t :=
  .of_assembler ha hs h.code

end

/-! ### The stack (R133 to R143) -/

theorem hasTestEntry_iff (stack : List OverrideEntry) :
    hasTestEntry stack = true ↔ ∃ e ∈ stack, e.value = .content true := by simp [hasTestEntry]

/-- Content TEST comes from a TEST entry (R140). -/
theorem hasTestEntry_of_mergedContent {stack : List OverrideEntry} (h : mergedContent stack = .test) :
    hasTestEntry stack = true := by
  rw [hasTestEntry_iff]
  induction stack with
  | nil => cases h
  | cons e rest ih =>
    rw [List.exists_mem_cons_iff]
    unfold mergedContent at h
    split at h
    · next test he =>
      cases test with
      | true => exact .inl he
      | false => cases h
    all_goals exact .inr (ih h)

/-- What an entry that stays after the expiry step has kept (R143). -/
theorem OverrideEntry.expire_some {e e' : OverrideEntry} (h : e.expire = some e') :
    e'.value = e.value ∧ e'.mark = false ∧ (e.Sound → e'.Sound) := by
  cases hm : e.mark with
  | false =>
    rw [OverrideEntry.expire_unmarked e hm] at h
    cases h
    exact ⟨rfl, hm, id⟩
  | true =>
    rw [OverrideEntry.expire_marked e hm] at h
    obtain ⟨hlast, he⟩ := Option.ite_none_left_eq_some.1 h
    cases he
    refine ⟨rfl, rfl, fun hsound n hn => ?_⟩
    obtain ⟨minutes, hminutes, rfl⟩ := Option.mem_map.1 hn
    obtain ⟨-, hhigh⟩ := hsound minutes hminutes
    rw [Option.mem_def.1 hminutes] at hlast
    simp only [Option.any_some, decide_eq_true_eq] at hlast
    omega

section

variable {a : Assembler} {stack rest : List OverrideEntry}

/-- A stack whose entries are sound, each with the value of an entry of a sound stack and as few of them. -/
theorem CodeSound.of_stack (h : CodeSound a stack) (hlength : rest.length ≤ stack.length)
    (hvalue : ∀ e ∈ rest, ∃ e0 ∈ stack, e0.value = e.value) (hentries : ∀ e ∈ rest, e.Sound)
    (hmarks : a.assembly = none → ∀ e ∈ rest, e.mark = false) : CodeSound a rest := by
  refine { h with guarded := fun htest => h.guarded ?_, depth := hlength.trans h.depth, entries := hentries, marks := hmarks }
  obtain ⟨e, he, htrue⟩ := (hasTestEntry_iff rest).1 htest
  obtain ⟨e0, he0, hsame⟩ := hvalue e he
  exact (hasTestEntry_iff stack).2 ⟨e0, he0, hsame.trans htrue⟩

/-- Entries that leave the stack leave a sound one (R137, R138). -/
theorem CodeSound.sublist (h : CodeSound a stack) (hsub : rest.Sublist stack) : CodeSound a rest :=
  h.of_stack hsub.length_le (fun e he => ⟨e, hsub.subset he, rfl⟩) (fun e he => h.entries e (hsub.subset he))
    fun hnone e he => h.marks hnone e (hsub.subset he)

/-- A new entry goes on a stack with room; a TEST entry, when the test record may be on air (R135, R136). -/
theorem CodeSound.push (h : CodeSound a stack) {e : OverrideEntry} (hroom : stack.length < 4) (he : e.Sound)
    (hmark : e.mark = false) (htest : e.value = .content true → testRecordFault a.test = none) :
    CodeSound a (e :: stack) := by
  refine { h with guarded := fun hhas => ?_, depth := hroom, entries := ?_, marks := fun hnone => ?_ }
  · obtain ⟨x, hx, htrue⟩ := (hasTestEntry_iff _).1 hhas
    rcases List.mem_cons.1 hx with rfl | hx
    · exact htest htrue
    · exact h.guarded ((hasTestEntry_iff _).2 ⟨x, hx, htrue⟩)
  · exact List.forall_mem_cons.2 ⟨he, h.entries⟩
  · exact List.forall_mem_cons.2 ⟨hmark, h.marks hnone⟩

/-! ### The banks (R103 to R110) -/

/-- A new shadow of 61 entries, while no commit is pending (R104, R105). -/
theorem CodeSound.setShadow (h : CodeSound a stack) {bank : List MapEntry} (hpending : a.commitPending = false)
    (hlength : bank.length = 61) : CodeSound (a.setShadow bank) stack := by
  have hactive : MapOnAir (a.setShadow bank).activeBank := by rw [Assembler.activeBank_setShadow]; exact h.active
  have hshadow : (a.setShadow bank).shadowBank.length = 61 := by rw [Assembler.shadowBank_setShadow, hlength]
  rw [Assembler.setShadow_eq] at hactive hshadow ⊢
  exact { h with active := hactive, shadow := hshadow, committed := fun hc => absurd hc (by simp [hpending]) }

/-- The swap puts on air what a commit has checked, and the shadow is the map that was on air (R108, R110). -/
theorem CodeSound.swapIfPending (h : CodeSound a stack) : CodeSound a.swapIfPending stack := by
  unfold Assembler.swapIfPending
  split
  · next hpending =>
    have hactive : ({ a with active1 := !a.active1, commitPending := false } : Assembler).activeBank = a.shadowBank := by
      unfold Assembler.activeBank Assembler.shadowBank
      cases a.active1 <;> rfl
    have hshadow : ({ a with active1 := !a.active1, commitPending := false } : Assembler).shadowBank = a.activeBank := by
      unfold Assembler.activeBank Assembler.shadowBank
      cases a.active1 <;> rfl
    obtain ⟨hlength, -⟩ := h.active
    exact { h with active := hactive ▸ ⟨h.shadow, h.committed hpending⟩, shadow := hshadow ▸ hlength, committed := nofun }
  · exact h

end

/-! ### The assembly (R115 to R117) -/

theorem wordLength_minuteLength (leaps : List LeapEntry) (n : Nat) : MinuteLength (wordLength leaps n) := by
  unfold wordLength
  repeat' split
  all_goals decide

section

variable {s : State}

/-- The view of a sound state is sound: the map on air, and under content TEST the record that its entry guards (R116). -/
theorem takeView_sound (h : CodeSound s.assembler s.stack) (lab : Label) : (takeView lab s).Sound :=
  ⟨h.active, wordLength_minuteLength _ _, fun hc => ⟨h.test, h.guarded (hasTestEntry_of_mergedContent hc)⟩⟩

theorem startAssembly_wordsSound (h : WordsSound s) (lab : Label) : WordsSound (startAssembly lab s) := by
  have hswapped := h.code.swapIfPending
  have hview : (takeView lab (s.withAssembler s.assembler.swapIfPending)).Sound := takeView_sound hswapped lab
  rw [wordsSound_iff, startAssembly_assembler, startAssembly_stack]
  generalize takeView lab (s.withAssembler s.assembler.swapIfPending) = v at hview
  generalize s.assembler.swapIfPending = a at hswapped
  have hstarted : CodeSound { a with assembly := some v, lastViewProfile := some v.profile } s.stack :=
    { hswapped with view := fun _ hv => Option.some.inj hv ▸ hview, marks := nofun }
  refine hstarted.of_stack (by simp [markAll]) (fun e he => ?_) (fun e he => ?_) nofun
  all_goals obtain ⟨e0, he0, rfl⟩ := List.mem_map.1 he
  · exact ⟨e0, he0, rfl⟩
  · exact h.code.entries e0 he0

theorem completeAssembly_wordsSound (h : WordsSound s) : WordsSound (completeAssembly s) := by
  cases hv : s.assembler.assembly with
  | none => rwa [completeAssembly_of_none hv]
  | some v =>
    rw [completeAssembly_of_some hv]
    have hword : (buildWord v).Sound := (h.code.view v hv).buildWord
    have hbroken : (buildWord v).broken = false := rfl
    have hexpired (e' : OverrideEntry) (he' : e' ∈ expireStack s.stack) :
        ∃ e ∈ s.stack, e'.value = e.value ∧ e'.mark = false ∧ (e.Sound → e'.Sound) := by
      obtain ⟨e, he, hexpire⟩ := List.mem_filterMap.1 he'
      exact ⟨e, he, OverrideEntry.expire_some hexpire⟩
    have hstack : CodeSound s.assembler (expireStack s.stack) := by
      refine h.code.of_stack (List.length_filterMap_le ..) (fun e' he' => ?_) (fun e' he' => ?_) (fun _ e' he' => ?_)
      all_goals obtain ⟨e, he, hvalue, hmark, hsound⟩ := hexpired e' he'
      · exact ⟨e, he, hvalue.symm⟩
      · exact hsound (h.code.entries e he)
      · exact hmark
    generalize buildWord v = w at hword hbroken
    rw [wordsSound_iff, State.withAssembler_assembler, State.withAssembler_stack, State.withStack_stack]
    exact { hstack with
      view := forall_mem_none
      pendingWord := fun _ hw => Option.some.inj hw ▸ ⟨hword, hbroken⟩
      marks := fun _ e' he' => by obtain ⟨-, -, -, hmark, -⟩ := hexpired e' he'; exact hmark }

/-! ### The words at a boundary (R114, R126 to R130, R161) -/

theorem dropWords_wordsSound (h : WordsSound s) : WordsSound (dropWords s) := by
  refine .of_assembler (s := s) (dropWords_assembler s) (by simp) ?_
  exact { h.code with pendingWord := forall_mem_none, current := forall_mem_none }

theorem copySlot_wordsSound (h : WordsSound s) : WordsSound (copySlot s) := by
  refine .of_assembler (s := s) (copySlot_assembler s) (by simp) ?_
  exact { h.code with inForce := h.code.setting }

/-- The pending word becomes the current one (R126). -/
theorem handOver_wordsSound (h : WordsSound s) : WordsSound (handOver s) := by
  refine .of_assembler (s := s) (handOver_assembler s) (by simp) ?_
  refine { h.code with pendingWord := forall_mem_none, current := fun cw hcw => ?_ }
  obtain ⟨w, hw, rfl⟩ := Option.mem_map.1 hcw
  obtain ⟨hword, -⟩ := h.code.pendingWord w hw
  exact hword

theorem beginSlot_wordsSound (h : WordsSound s) (n : Nat) : WordsSound (beginSlot n s) := by
  refine .of_assembler (s := s) (beginSlot_assembler n s) (by simp) ?_
  refine { h.code with current := fun cw hcw => ?_ }
  obtain ⟨cw0, hcw0, rfl⟩ := Option.mem_map.1 hcw
  exact h.code.current cw0 hcw0

theorem assemblerWords_wordsSound (h : WordsSound s) (lab : Label) : WordsSound (assemblerWords lab s) := by
  have dropped : WordsSound (if lab.mark = .none then s else dropWords s) := by
    split
    · exact h
    · exact dropWords_wordsSound h
  unfold assemblerWords
  dsimp only
  split
  · exact handOver_wordsSound (copySlot_wordsSound dropped)
  · exact beginSlot_wordsSound dropped _

theorem assemblerBoundary_wordsSound (h : WordsSound s) (label : Option Label) :
    WordsSound (assemblerBoundary label s) := by
  cases label with
  | none =>
    refine .of_assembler (s := s) (assemblerBoundary_none s) (by simp [assemblerBoundary]) ?_
    exact { h.code with pendingWord := forall_mem_none, current := forall_mem_none, inForce := h.code.setting }
  | some lab =>
    rw [assemblerBoundary_some]
    split
    · exact startAssembly_wordsSound (assemblerWords_wordsSound h lab) lab
    · exact assemblerWords_wordsSound h lab

/-- A broken word is as long as before and ends as before (R161). -/
theorem markBroken_wordsSound (h : WordsSound s) : WordsSound (markBroken s) := by
  refine .of_assembler (s := s) (markBroken_assembler s) (by simp) ?_
  refine { h.code with current := fun cw hcw => ?_ }
  obtain ⟨cw0, hcw0, rfl⟩ := Option.mem_map.1 hcw
  exact h.code.current cw0 hcw0

theorem slotStart_wordsSound (h : WordsSound s) (label : Option Label) : WordsSound (slotStart label s) := by
  have hassembler := slotStart_assembler label s
  split at hassembler
  · exact (markBroken_wordsSound h).congr hassembler (by simp)
  · exact h.congr hassembler (by simp)

theorem secondBoundary_wordsSound (h : WordsSound s) (cause : BoundaryCause) : WordsSound (secondBoundary cause s) := by
  have hlabelled : WordsSound (labelled cause s) :=
    (completeAssembly_wordsSound h).congr (labelled_assembler cause s) (by simp [labelled])
  have hcarrier : WordsSound (boundaryCarrier cause s) :=
    (assemblerBoundary_wordsSound hlabelled (beginningLabel cause s)).congr (by simp [boundaryCarrier])
      (by simp [boundaryCarrier])
  rw [secondBoundary_eq]
  exact (slotStart_wordsSound hcarrier (beginningLabel cause s)).congr (by simp) (by simp)

end

end Sys2Proof.Machine

/-! PROOFS. Every step keeps banks, words and stack sound (O52), continued: pulses and the keying step, the requests, and the
step. -/

namespace Sys2Proof.Machine

section

variable {s t : State}

/-! ### Pulses (R44 to R55) -/

theorem steer_wordsSound (h : WordsSound s) (x : Link) (e : Int) : WordsSound (steer x e s) := by
  have phased : WordsSound (setPhase x s) := h.congr rfl rfl
  unfold steer
  split
  · exact secondBoundary_wordsSound phased .advance
  · split
    · exact h
    · exact phased.congr (by simp) (by simp)

theorem activate_wordsSound (h : WordsSound s) (x : Link) : WordsSound (activate x s) := h.congr (by simp) (by simp)

theorem adopt_wordsSound (h : WordsSound s) (x : Link) (f : EpochFrame) (e : Int) : WordsSound (adopt x f e s) := by
  have active := activate_wordsSound h x
  unfold adopt
  dsimp only
  split
  · exact secondBoundary_wordsSound (active.congr (by simp) (by simp)) _
  · split
    · exact steer_wordsSound active x e
    · exact secondBoundary_wordsSound (active.congr (by simp) (by simp)) _

theorem revertiveTest_wordsSound (h : WordsSound s) (x : Link) (f : EpochFrame) (e : Int) :
    WordsSound (revertiveTest x f e s) := by
  unfold revertiveTest
  split
  · split
    · exact steer_wordsSound (activate_wordsSound h x) x e
    · exact h
  · exact h.congr rfl rfl

theorem goodSecond_wordsSound (h : WordsSound s) (x : Link) (f : EpochFrame) (e : Int) :
    WordsSound (goodSecond x f e s) := by
  have counted (mon : Monitor) : WordsSound (s.setMonitor x mon) := h.congr rfl rfl
  unfold goodSecond
  dsimp only
  split
  · exact steer_wordsSound (counted _) x e
  · split
    · split
      · exact adopt_wordsSound (counted _) x f e
      · exact revertiveTest_wordsSound (counted _) x f e
    · exact counted _

theorem judgeSecond_wordsSound (h : WordsSound s) (x : Link) : WordsSound (judgeSecond x s) := by
  have noted (frame : Option EpochFrame) (e : Int) :
      WordsSound (noteStray x e (noteFrame x frame (consumePulse x s))) := h.congr (by simp) (by simp)
  unfold judgeSecond
  dsimp only
  split
  · exact goodSecond_wordsSound (noted _ _) x _ _
  · exact h.congr (by simp) (by simp)
  · exact h.congr (by simp) (by simp)

theorem takePulse_wordsSound (h : WordsSound s) (x : Link) : WordsSound (takePulse x s) := by
  unfold takePulse
  split
  · exact h
  · split
    · exact h.congr rfl rfl
    · exact judgeSecond_wordsSound h x

theorem takeWaiting_wordsSound (h : WordsSound s) (x : Link) : WordsSound (takeWaiting x s) := by
  unfold takeWaiting
  split
  · exact takePulse_wordsSound (h.congr (by simp) (by simp)) x
  · exact h

theorem takeL6Pulse_wordsSound (h : WordsSound s) : WordsSound (takeL6Pulse s) := by
  unfold takeL6Pulse
  split
  · exact takePulse_wordsSound (h.congr (by simp) (by simp)) .b
  · exact h

theorem takeEdge_wordsSound (h : WordsSound s) (i : PulseInput) : WordsSound (takeEdge i s) := by
  cases i with
  | ppsA => exact takePulse_wordsSound h .a
  | ppsB =>
    simp only [takeEdge]
    split
    · exact h
    · exact takePulse_wordsSound h .b
  | lineL6 => exact takeL6Pulse_wordsSound h

/-! ### The keying step and its events (R40 to R45, R173, R178) -/

/-- A HALT breaks the current word at most (R161, R173). -/
theorem noteHalt_wordsSound (h : WordsSound s) (before : State) : WordsSound (noteHalt before s) := by
  rw [noteHalt_eq]
  split
  · have hassembler := haltAssertion_assembler s
    split at hassembler
    · exact (markBroken_wordsSound h).congr hassembler (by simp)
    · exact h.congr hassembler (by simp)
  · exact h

theorem takeFilterChange_wordsSound (h : WordsSound s) (n : LineId) : WordsSound (takeFilterChange n s) := by
  unfold takeFilterChange
  split
  · exact noteHalt_wordsSound (h.congr (by simp) (by simp)) s
  · exact h

theorem takeFilterChanges_wordsSound (h : WordsSound s) : WordsSound (takeFilterChanges s) := by
  unfold takeFilterChanges
  induction allLines generalizing s with
  | nil => exact h
  | cons n rest ih => exact ih (takeFilterChange_wordsSound h n)

theorem formWrap_wordsSound (h : WordsSound s) : WordsSound (formWrap s) := by
  have routed : WordsSound (if routedL6 s then takeFilterChange .l6 s else s) := by
    split
    · exact takeFilterChange_wordsSound h .l6
    · exact h
  have wrapped {u : State} (hu : WordsSound u) : WordsSound (takeWrap u) := by
    unfold takeWrap
    split
    · exact secondBoundary_wordsSound hu .advance
    · exact hu
  exact (wrapped (takeL6Pulse_wordsSound routed)).congr rfl rfl

theorem closeStep_wordsSound (h : WordsSound s) : WordsSound (closeStep s) := by
  have wrapped {u : State} (hu : WordsSound u) :
      WordsSound (if u.timebase.wrapDue then formWrap u else takeL6Pulse u) := by
    split
    · exact formWrap_wordsSound hu
    · exact takeL6Pulse_wordsSound hu
  exact (wrapped (takeFilterChanges_wordsSound h)).congr (by simp [closeStep]) (by simp [closeStep])

theorem keyingStep_wordsSound (h : WordsSound s) (pins : PinIn) :
    WordsSound (takeWaiting .b (takeWaiting .a (openStep pins (closeStep s)))) := by
  have opened : WordsSound (openStep pins (closeStep s)) := (closeStep_wordsSound h).congr (by simp) (by simp)
  exact takeWaiting_wordsSound (takeWaiting_wordsSound opened .a) .b

theorem execPulse_wordsSound (h : WordsSound s) (i : PulseEdges) (ht : execPulse i s = .next t) : WordsSound t := by
  have wrapped (w : Bool) {u : State} (hu : WordsSound u) : WordsSound (if w then formWrap u else u) := by
    cases w
    · exact hu
    · exact formWrap_wordsSound hu
  obtain ⟨input, also⟩ := i
  obtain rfl := Host.Outcome.next.inj ht
  have taken := takeEdge_wordsSound h input
  cases also with
  | some k => exact wrapped _ (takeEdge_wordsSound taken k)
  | none => exact wrapped _ taken

/-! ### The resets and the other events (R38, R95, R113, R133) -/

/-- A soft restart keeps the active bank and the shadow, drops words, commit and stack, and copies the slot setting (R38). -/
theorem softRestartEffect_wordsSound (h : WordsSound s) (src : Link) (wire : WireIn) :
    WordsSound (softRestartEffect src wire s) := by
  have code : CodeSound
      { s.assembler with
        commitPending := false, slotInForce := s.assembler.slotSetting, assembly := none, pendingWord := none,
        current := none, lastViewProfile := none } [] :=
    { h.code with
      committed := nofun
      guarded := nofun
      view := forall_mem_none
      pendingWord := forall_mem_none
      current := forall_mem_none
      inForce := h.code.setting
      depth := Nat.zero_le _
      entries := nofun
      marks := fun _ => nofun }
  exact (wordsSound_iff _).2 code

theorem event_wordsSound {c : Instr} (hc : sourceOf c = none) (h : WordsSound s) (ht : exec c s = .next t) :
    WordsSound t := by
  cases c <;> simp only [sourceOf, reduceCtorEq] at hc
  case pulse i => exact execPulse_wordsSound h i ht
  all_goals obtain rfl := Host.Outcome.next.inj ht
  case powerOnReset pins => exact reset_words.congr rfl rfl
  case keyingStep pins => exact keyingStep_wordsSound h pins
  case assemblyCompletion => exact completeAssembly_wordsSound h
  case lineFilterChange n => exact takeFilterChange_wordsSound h n
  case missingSecond | strobeEnd => exact h.congr (by simp) (by simp)
  case flywheelWrap =>
    split
    · exact formWrap_wordsSound h
    · exact h
  case replyComplete l =>
    split
    · split
      · exact softRestartEffect_wordsSound h _ _
      · exact h.congr (by simp) (by simp)
    all_goals exact h
  case byteReceived | characterFault | idle | leadExpiry | tailExpiry | characterInProgressCompleted | risingComplete |
      fallingComplete =>
    repeat' split
    all_goals exact h.congr (by simp) (by simp)

/-! ### Maps, test record and slot (R104, R105, R108, R109, R114, R124) -/

variable {rq : Request}

theorem writeMapOwn_wordsSound (h : WordsSound s) (hlen : rq.args.length = 2 + 4 * rq.num 1) :
    WordsSound (writeMapOwn rq s).state := by
  unfold writeMapOwn
  dsimp only
  split
  · exact h
  · next hpending =>
    split
    · exact h
    · next hrange =>
      split
      · exact h
      · next entries hentries =>
        have hnum := entries_length_of_count hlen hentries
        have hshadow := h.code.shadow
        have hbank := writeEntries_length s.assembler.shadowBank (rq.num 0) entries (by omega)
        exact CodeSound.words (h.code.setShadow (Bool.eq_false_of_not_eq_true hpending) (hbank.trans hshadow))

/-- The length check leaves as many entries as the count says, so that the shadow keeps its 61 (R104). -/
theorem writeMapAnswer_wordsSound (h : WordsSound s) : WordsSound (writeMapAnswer rq s).state := by
  by_cases hlen : rq.args.length = 2 + 4 * rq.num 1
  · exact writeMapAnswer_state h (writeMapOwn_wordsSound h hlen)
  · rwa [writeMapAnswer_length hlen]

theorem copyMapAnswer_wordsSound (h : WordsSound s) : WordsSound (copyMapAnswer rq s).state := by
  unfold copyMapAnswer
  split
  · exact h
  · next hpending =>
    obtain ⟨hlength, -⟩ := h.code.active
    exact CodeSound.words (h.code.setShadow (Bool.eq_false_of_not_eq_true hpending) hlength)

/-- A commit is taken when the shadow passes every check (R108). -/
theorem commitMapAnswer_wordsSound (h : WordsSound s) : WordsSound (commitMapAnswer rq s).state := by
  unfold commitMapAnswer
  split
  · exact h
  · split
    · exact h
    · next hpass => exact CodeSound.words { h.code with committed := fun _ => hpass }

theorem cancelCommitAnswer_wordsSound (h : WordsSound s) : WordsSound (cancelCommitAnswer rq s).state := by
  unfold cancelCommitAnswer
  split
  · exact CodeSound.words { h.code with committed := nofun }
  · exact h

theorem symbolsOf_length : ∀ {bs : List Byte} {xs : List Symbol}, symbolsOf bs = some xs → xs.length = bs.length
  | [], xs, h => by cases h; rfl
  | b :: bs, xs, h => by
    unfold symbolsOf at h
    split at h
    · next x rest _ hrest =>
      cases h
      rw [List.length_cons, List.length_cons, symbolsOf_length hrest]
    · cases h

/-- A new test record is checked while a TEST entry stands on the stack (R124, R136). -/
theorem writeTestOwn_wordsSound (h : WordsSound s) (hlen : rq.args.length = 61) : WordsSound (writeTestOwn rq s).state := by
  unfold writeTestOwn
  split
  · exact h
  · next record hrecord =>
    split
    · exact h
    · next hvalid =>
      have hlength : record.length = 60 := by rw [symbolsOf_length hrecord, List.length_drop, hlen]
      have hguard (hhas : hasTestEntry s.stack = true) : testRecordFault record = none := by rwa [if_pos hhas] at hvalid
      exact CodeSound.words { h.code with test := hlength, guarded := hguard }

theorem writeTestAnswer_wordsSound (h : WordsSound s) : WordsSound (writeTestAnswer rq s).state := by
  by_cases hlen : rq.args.length = 61
  · exact writeTestAnswer_state h (writeTestOwn_wordsSound h hlen)
  · rwa [writeTestAnswer_length (.inl hlen)]

theorem setAssemblySlotAnswer_wordsSound (h : WordsSound s) : WordsSound (setAssemblySlotAnswer rq s).state :=
  CodeSound.words { h.code with setting := clamp_bounds _ (by decide) }

/-! ### The stack (R135 to R138) -/

/-- A TEST entry is pushed when the test record may be on air (R136). -/
theorem pushOverrideAnswer_wordsSound (h : WordsSound s) : WordsSound (pushOverrideAnswer rq s).state := by
  unfold pushOverrideAnswer
  split
  · next value present _ _ =>
    split
    · exact h
    · next hroom =>
      split
      · exact h
      · next hvalid =>
        have hminutes : ∀ n ∈ rq.overrideMinutes present, 1 ≤ n ∧ n ≤ 1440 := by
          intro n hn
          obtain ⟨-, hclamped⟩ := Option.ite_none_right_eq_some.1 hn
          rw [← Option.some.inj hclamped]
          exact clamp_bounds _ (by decide)
        have htest (hv : value = .content true) : testRecordFault s.assembler.test = none := by rwa [if_pos hv] at hvalid
        exact CodeSound.words (h.code.push (Nat.not_le.1 hroom) hminutes rfl htest)
  · exact h

theorem popOverrideAnswer_wordsSound (h : WordsSound s) : WordsSound (popOverrideAnswer rq s).state := by
  unfold popOverrideAnswer
  split
  · exact h
  · next e rest hstack => exact CodeSound.words (h.code.sublist (hstack ▸ List.sublist_cons_self e rest))

theorem removeOverrideAnswer_wordsSound (h : WordsSound s) : WordsSound (removeOverrideAnswer rq s).state := by
  unfold removeOverrideAnswer
  split
  · exact h
  · split
    · exact h
    · exact CodeSound.words (h.code.sublist (List.eraseIdx_sublist ..))

/-! ### Lines and CONTROL (R34, R186) -/

theorem writeLinesAnswer_wordsSound (h : WordsSound s) (pins : PinIn) : WordsSound (writeLinesAnswer pins rq s).state := by
  unfold writeLinesAnswer
  split
  · split
    · exact h
    · unfold applyLineSettings
      refine noteHalt_wordsSound ?_ s
      split
      all_goals exact h.congr (by simp) (by simp)
  · split
    · exact h.congr rfl rfl
    · exact h

theorem controlAnswer_wordsSound (h : WordsSound s) : WordsSound (controlAnswer rq s).state := by
  by_cases hlen : rq.args.length = 6
  · cases h1 : (if keptPart rq s 0 .carrier then carrierPart (rq.arg 1) s else .ok s) with
    | error r => exact controlAnswer_carrier_refused hlen h1 ▸ h
    | ok s1 =>
      cases h2 : (if keptPart rq s 1 .code then codePart (rq.arg 2) s1 else .ok s1) with
      | error r => exact controlAnswer_code_refused hlen h1 h2 ▸ h
      | ok s2 =>
        rw [controlAnswer_applied hlen h1 h2]
        obtain ⟨c1, rfl⟩ := withCarrier_of_ite carrierPart_withCarrier h1
        obtain ⟨c2, rfl⟩ := withCarrier_of_ite codePart_withCarrier h2
        exact CodeSound.words { h.code with }
  · rw [controlAnswer, if_pos hlen]
    exact h

/-! ### All requests (R26 to R28) -/

/-- The own answers that change the assembler or the stack, but those of WRITE_MAP and WRITE_TEST, which rely on the length that
their first check finds. -/
def codeAnswers (pins : PinIn) : List (Request → State → Answer) :=
  [copyMapAnswer, commitMapAnswer, cancelCommitAnswer, pushOverrideAnswer, popOverrideAnswer, removeOverrideAnswer,
    setAssemblySlotAnswer, writeLinesAnswer pins]

theorem codeAnswers_wordsSound {pins : PinIn} {own : Request → State → Answer} (ho : own ∈ codeAnswers pins)
    (h : WordsSound s) : WordsSound (own rq s).state := by
  revert own
  simp only [codeAnswers, List.forall_mem_cons, List.not_mem_nil, IsEmpty.forall_iff, implies_true, and_true]
  exact ⟨copyMapAnswer_wordsSound h, commitMapAnswer_wordsSound h, cancelCommitAnswer_wordsSound h,
    pushOverrideAnswer_wordsSound h, popOverrideAnswer_wordsSound h, removeOverrideAnswer_wordsSound h,
    setAssemblySlotAnswer_wordsSound h, writeLinesAnswer_wordsSound h pins⟩

/-- The own answers of the requests that concern neither assembler nor stack, the reads but READ_STATUS apart. -/
def otherAnswers (wire : WireIn) : List (Request → State → Answer) :=
  [setLinkAnswer wire, setReturnLimitAnswer, disableLinkAnswer wire, enableLinkAnswer wire, setPermissionsAnswer,
    softRestartAnswer, setTimebaseAnswer, setBalanceAnswer, setCivilAnswer, setWindowsAnswer, addLeapAnswer, deleteLeapAnswer,
    addTransitionAnswer, deleteTransitionAnswer, writeProfileAnswer, setRampAnswer, readStatusAnswer]

theorem readStatusAnswer_code (rq : Request) (s : State) :
    (readStatusAnswer rq s).state.assembler = s.assembler ∧ (readStatusAnswer rq s).state.stack = s.stack := by
  have hcapture : (captureStatus rq s).state = if rq.wantsReply then s.withFreeDraws (s.freeDraws + 1) else s :=
    readAnswer_state ..
  unfold readStatusAnswer
  split
  · exact ⟨rfl, rfl⟩
  · next clear _ =>
    split
    · exact ⟨rfl, rfl⟩
    · dsimp only
      rw [hcapture]
      cases clear <;> cases rq.wantsReply <;> exact ⟨rfl, rfl⟩

theorem otherAnswers_code {wire : WireIn} {own : Request → State → Answer} (ho : own ∈ otherAnswers wire) (rq : Request)
    (s : State) : (own rq s).state.assembler = s.assembler ∧ (own rq s).state.stack = s.stack := by
  revert own
  simp only [otherAnswers, List.forall_mem_cons, List.not_mem_nil, IsEmpty.forall_iff, implies_true, and_true,
    readStatusAnswer_code]
  and_intros
  all_goals
    simp only [setLinkAnswer, setReturnLimitAnswer, disableLinkAnswer, enableLinkAnswer, setPermissionsAnswer,
      softRestartAnswer, setTimebaseAnswer, setBalanceAnswer, setCivilAnswer, setWindowsAnswer, addLeapAnswer,
      deleteLeapAnswer, addTransitionAnswer, deleteTransitionAnswer, writeProfileAnswer, setRampAnswer, disableEffect,
      enableEffect]
    repeat' split
    all_goals simp

theorem row_wordsSound {src : Link} {pins : PinIn} {wire : WireIn} {row : RequestRow}
    (hrow : row ∈ requestRows src pins wire) (h : WordsSound s) : WordsSound (row.handler rq s).state := by
  have other {own : Request → State → Answer} (ho : own ∈ otherAnswers wire) : WordsSound (own rq s).state :=
    h.congr (otherAnswers_code ho rq s).1 (otherAnswers_code ho rq s).2
  have checkedOther {own : Request → State → Answer} (ho : own ∈ otherAnswers wire) (n : Nat) (c : PermClass) :
      WordsSound (checked n c own rq s).state := checked_state n c h (other ho)
  have lengthOther {own : Request → State → Answer} (ho : own ∈ otherAnswers wire) (n : Nat) :
      WordsSound (lengthChecked n own rq s).state := lengthChecked_state n h (other ho)
  have checkedCode {own : Request → State → Answer} (ho : own ∈ codeAnswers pins) (n : Nat) (c : PermClass) :
      WordsSound (checked n c own rq s).state := checked_state n c h (codeAnswers_wordsSound ho h)
  have lengthRead {own : Request → State → Answer} (ho : own ∈ readAnswers) (n : Nat) :
      WordsSound (lengthChecked n own rq s).state := lengthChecked_state n h ((readAnswers_state ho rq s).symm ▸ h)
  revert row
  simp only [requestRows, List.forall_mem_cons, List.not_mem_nil, IsEmpty.forall_iff, implies_true, and_true]
  refine ⟨checkedOther ?_ _ _, checkedOther ?_ _ _, lengthOther ?_ _, lengthOther ?_ _, lengthOther ?_ _, checkedOther ?_ _ _,
    checkedOther ?_ _ _, checkedOther ?_ _ _, checkedOther ?_ _ _, checkedOther ?_ _ _, checkedOther ?_ _ _,
    checkedOther ?_ _ _, checkedOther ?_ _ _, checkedOther ?_ _ _, writeMapAnswer_wordsSound h, checkedCode ?_ _ _,
    checkedCode ?_ _ _, checkedCode ?_ _ _, writeTestAnswer_wordsSound h, checkedCode ?_ _ _, checkedCode ?_ _ _,
    checkedCode ?_ _ _, checkedOther ?_ _ _, checkedOther ?_ _ _, checkedCode ?_ _ _, checkedCode ?_ _ _, lengthRead ?_ _,
    lengthRead ?_ _, lengthRead ?_ _, lengthRead ?_ _, lengthRead ?_ _, lengthRead ?_ _, lengthOther ?_ _⟩
  all_goals simp [otherAnswers, codeAnswers, readAnswers]

theorem request_wordsSound {c : Instr} {src : Link} (hc : sourceOf c = some src) (h : WordsSound s)
    (ht : exec c s = .next t) : WordsSound t := by
  have popped : WordsSound (popTaken src s) := h.congr (by simp) (by simp)
  have finished {rq : Request} {an : Answer} (ha : WordsSound an.state) : WordsSound (finishTake rq an) :=
    ha.congr (by simp) (by simp)
  rcases sourceOf_cases hc with ⟨pins, wire, row, hrow, rfl⟩ | hcontrol | rfl
  · rw [exec_row hrow] at ht
    obtain rfl := Host.Outcome.next.inj ht
    rcases takeNamed_cases row.name row.handler src s with he | ⟨rq, -, he⟩ <;> rw [he]
    · exact h
    · exact finished (row_wordsSound hrow popped)
  · obtain ⟨row, hrow⟩ := exec_control hcontrol
    rw [hrow] at ht
    obtain rfl := Host.Outcome.next.inj ht
    rcases takeControl_cases row src s with he | ⟨rq, -, he⟩ <;> rw [he]
    · exact h
    · exact finished (controlAnswer_wordsSound popped)
  · obtain rfl := Host.Outcome.next.inj ht
    rcases takeUnknown_cases src s with he | he | ⟨rq, -, he⟩ <;> rw [he]
    · exact h
    · exact popped
    · exact finished popped

end

/-- Settles O52: every command keeps the promises, and taking it from the queue does not touch them. -/
theorem stepKeepsWords : Obligations.StepKeepsWords := by
  intro s t h ht
  unfold step at ht
  split at ht
  · obtain rfl := Host.Outcome.next.inj ht
    exact h
  · next c rest _ =>
    have hrest : WordsSound (s.withPending rest) := h
    cases hc : sourceOf c with
    | none => exact event_wordsSound hc hrest ht
    | some src => exact request_wordsSound hc hrest ht

end Sys2Proof.Machine

/-! PROOFS. The test record and the override stack (O26), and the shape and slot requests (O28): what each answers when its checks
pass (R114, R124, R134 to R137, R146, R147, R164). -/

namespace Sys2Proof.Machine

/-! ### WRITE_TEST, PUSH_OVERRIDE and POP_OVERRIDE taken (R124, R135 to R137) -/

section

variable {rq : Request} {s : State}

/-- A record that may be on air, or that no entry puts there, is written (R124). -/
theorem writeTestOwn_of_record {record : List Symbol} (hrecord : symbolsOf (rq.args.drop 1) = some record)
    (hvalid : hasTestEntry s.stack = true → testRecordFault record = none) :
    writeTestOwn rq s = carriedOut false (s.withAssembler { s.assembler with test := record }) := by
  rw [writeTestOwn, hrecord]
  dsimp only
  rw [ite_eq_right_iff.2 hvalid]

theorem Request.overrideClamped_eq (rq : Request) (present : Bool) :
    rq.overrideClamped present =
      decide ((rq.arg 0 = 1 ∧ 3 < rq.num 1) ∨ (present = true ∧ (rq.num2 4 < 1 ∨ 1440 < rq.num2 4))) := by
  rw [Request.overrideClamped, clamp_bne _ (by decide), beq_eq_decide]
  simp

/-- An override that its codes name goes on top of a stack with room, a TEST one when the record may be on air (R135, R136). -/
theorem pushOverrideAnswer_of_value {value : OverrideValue} {present : Bool}
    (hvalue : overrideValueOf (rq.arg 0) (rq.arg 1) (rq.arg 2) = some value) (hpresent : boolOf (rq.arg 3) = some present)
    (hroom : s.stack.length < 4) (hvalid : value = .content true → testRecordFault s.assembler.test = none) :
    pushOverrideAnswer rq s = carriedOut (rq.overrideClamped present)
      (s.withStack
        ({ value := value, remaining := rq.overrideMinutes present, link := rq.src, mark := false } :: s.stack)) := by
  rw [pushOverrideAnswer, hvalue, hpresent]
  dsimp only
  rw [if_neg (Nat.not_le.2 hroom), ite_eq_right_iff.2 hvalid]

theorem popOverrideAnswer_cons {top : OverrideEntry} {rest : List OverrideEntry} (h : s.stack = top :: rest) :
    popOverrideAnswer rq s = carriedOut false (s.withStack rest) := by
  rw [popOverrideAnswer, h]

theorem popOverrideAnswer_nil (h : s.stack = []) : popOverrideAnswer rq s = refuse .stackEmpty s := by
  rw [popOverrideAnswer, h]

end

/-- Settles O26, each request from what its answer is when its checks pass. -/
theorem overrideRequestsTakeEffect : Obligations.OverrideRequestsTakeEffect := by
  intro src s rq s1
  have hpopped : s1.stack = s.stack := by simp [s1]
  refine ⟨fun record htakes hlen hcount hperm hrecord hair => ?write,
    fun value present htakes hlen hperm hvalue hpresent hroom hair => ?push, fun top rest htakes hlen hperm hstack => ?pop,
    fun htakes hlen hperm hstack => ?empty⟩
  case write =>
    have hvalid : hasTestEntry s1.stack = true → testRecordFault record = none := fun htest =>
      (testRecordFault_eq_none_iff record).2 (hair.resolve_left (by simp [← hpopped, htest]))
    show Host.Outcome.next (takeNamed 0x14 writeTestAnswer src s) = _
    rw [takeNamed_of_takes htakes, writeTestAnswer, if_neg (by simp [hlen, hcount]), permitted_popTaken, htakes.src, hperm,
      writeTestOwn_of_record hrecord hvalid]
    rfl
  case push =>
    have hvalid (htest : value = .content true) : testRecordFault s.assembler.test = none :=
      (testRecordFault_eq_none_iff _).2 (hair.resolve_left (not_not.2 htest))
    have hanswer := pushOverrideAnswer_of_value (s := s1) hvalue hpresent hroom hvalid
    rw [htakes.src, Request.overrideClamped_eq] at hanswer
    exact congrArg _ ((take_checked htakes pushOverrideAnswer hlen hperm).trans (congrArg _ hanswer))
  case pop =>
    exact congrArg _ ((take_checked htakes popOverrideAnswer hlen hperm).trans
      (congrArg _ (popOverrideAnswer_cons (s := s1) hstack)))
  case empty =>
    exact congrArg _ ((take_checked htakes popOverrideAnswer hlen hperm).trans
      (congrArg _ (popOverrideAnswer_nil (s := s1) hstack)))

/-! ### The relations of a profile (R147) -/

/-- What it is to be the first number whose relation fails, none when all hold. -/
def FirstFailing (holds : Nat → Prop) : Option Nat → Prop
  | none => ∀ n, holds n
  | some n => ¬holds n ∧ ∀ k < n, holds k

section

variable {holds : Nat → Prop} {o o' : Option Nat}

theorem FirstFailing.unique (h : FirstFailing holds o) (h' : FirstFailing holds o') : o = o' := by
  match o, o', h, h' with
  | none, none, _, _ => rfl
  | none, some n, hall, ⟨hn, _⟩ => exact absurd (hall n) hn
  | some n, none, ⟨hn, _⟩, hall => exact absurd (hall n) hn
  | some n, some m, ⟨hn, hbelow⟩, ⟨hm, hbelow'⟩ =>
    exact congrArg _ (Nat.le_antisymm (Nat.not_lt.1 fun hlt => hm (hbelow m hlt)) (Nat.not_lt.1 fun hlt => hn (hbelow' n hlt)))

theorem FirstFailing.eq_iff (h : FirstFailing holds o) (o' : Option Nat) : o = o' ↔ FirstFailing holds o' :=
  ⟨fun he => he ▸ h, h.unique⟩

/-- One test of a cascade: with all below n passed, it answers n, or the tests from n + 1 on decide. -/
theorem FirstFailing.test {failed : Prop} [Decidable failed] {n : Nat} (hn : failed ↔ ¬holds n) (hbelow : ∀ k < n, holds k)
    (hlater : (∀ k < n + 1, holds k) → FirstFailing holds o) : FirstFailing holds (if failed then some n else o) := by
  split
  · next hfailed => exact ⟨hn.1 hfailed, hbelow⟩
  · next hpassed =>
    have hholds : holds n := by_contra fun hnot => hpassed (hn.2 hnot)
    exact hlater fun k hk => (Nat.lt_succ_iff_lt_or_eq.1 hk).elim (hbelow k) fun he => he ▸ hholds

end

/-- The relation of a number; numbers that name none hold (R147). -/
def ProfileRelation (p : Profile) : Nat → Prop
  | 1 => ∀ d ∈ [p.zero, p.one, p.mark], d.low < p.full
  | 2 => ∀ d ∈ [p.zero, p.one, p.mark], d.rd ≤ d.ldip
  | 3 => ∀ d ∈ [p.zero, p.one, p.mark], d.ldip + d.ru ≤ 950
  | _ => True

theorem profileFault_firstFailing (p : Profile) : FirstFailing (ProfileRelation p) (profileFault p) := by
  have failed {relation : DipShape → Prop} [DecidablePred relation] {shapes : List DipShape} :
      (!shapes.all fun d => decide (relation d)) = true ↔ ¬∀ d ∈ shapes, relation d := by simp
  refine .test failed (fun k hk => ?zero) fun hlow => .test failed hlow fun hrd => .test failed hrd fun hru n => ?rest
  case zero =>
    obtain rfl := Nat.lt_one_iff.1 hk
    trivial
  case rest =>
    match n with
    | 0 | 1 | 2 | 3 => exact hru _ (by decide)
    | n + 4 => trivial

/-! ### WRITE_PROFILE, SET_RAMP and SET_ASSEMBLY_SLOT taken (R114, R147, R164) -/

section

variable {rq : Request} {s : State} {i : Fin 4}

theorem writeProfileAnswer_of_passes (hi : rq.num 0 = i.val) (hpass : profileFault (clampProfile rq.profile) = none) :
    writeProfileAnswer rq s = carriedOut (decide (clampProfile rq.profile ≠ rq.profile))
      (s.withKeying { s.keying with profiles := s.keying.profiles.set i (clampProfile rq.profile) }) := by
  have hindex : ¬3 < rq.num 0 := by omega
  have hclamped : (clampProfile rq.profile != rq.profile) = decide (clampProfile rq.profile ≠ rq.profile) := by
    rw [decide_not, bne, beq_eq_decide]
  rw [writeProfileAnswer, if_neg hindex, hi, profileOf_val]
  dsimp only
  rw [hpass, hclamped]

theorem writeProfileAnswer_of_fails {n : Nat} (hi : rq.num 0 = i.val)
    (hfails : profileFault (clampProfile rq.profile) = some n) :
    writeProfileAnswer rq s = refuse (.validation n) s := by
  have hindex : ¬3 < rq.num 0 := by omega
  rw [writeProfileAnswer, if_neg hindex]
  dsimp only
  rw [hfails]

theorem setRampAnswer_eq (rq : Request) (s : State) :
    setRampAnswer rq s = carriedOut (decide (rq.num2 0 < 100 ∨ 10000 < rq.num2 0))
      (s.withCarrier { s.carrier with rampSetting := max 100 (min 10000 (rq.num2 0)) }) := by
  rw [setRampAnswer]
  dsimp only
  rw [clamp_bne _ (by decide)]
  rfl

theorem setAssemblySlotAnswer_eq (rq : Request) (s : State) :
    setAssemblySlotAnswer rq s = carriedOut (decide (rq.num 0 < 30 ∨ 57 < rq.num 0))
      (s.withAssembler { s.assembler with slotSetting := max 30 (min 57 (rq.num 0)) }) := by
  rw [setAssemblySlotAnswer]
  dsimp only
  rw [clamp_bne _ (by decide)]
  rfl

end

/-- Settles O28: the cascade of relations finds the first that fails, and each request from its answer. -/
theorem shapeAndSlotRequestsTakeEffect : Obligations.ShapeAndSlotRequestsTakeEffect := by
  refine ⟨fun p => ?relations, fun src s rq => ?requests⟩
  case relations =>
    intro holds
    have hholds : ProfileRelation p = holds := rfl
    have hfirst := profileFault_firstFailing p
    rw [hholds] at hfirst
    exact ⟨hfirst.eq_iff none, fun n => hfirst.eq_iff (some n)⟩
  case requests =>
    intro s1
    refine ⟨fun i htakes hlen hperm hi => ?profile, fun htakes hlen hperm => ?ramp, fun htakes hlen hperm => ?slot⟩
    case profile =>
      intro p
      have htaken := take_checked htakes writeProfileAnswer hlen hperm
      refine ⟨fun hpass => ⟨clampProfile_sound hpass, ?_⟩, fun n hfails => ?_⟩
      · exact congrArg _ (htaken.trans (congrArg _ (writeProfileAnswer_of_passes (s := s1) hi hpass)))
      · exact congrArg _ (htaken.trans (congrArg _ (writeProfileAnswer_of_fails (s := s1) hi hfails)))
    case ramp =>
      exact congrArg _ ((take_checked htakes setRampAnswer hlen hperm).trans (congrArg _ (setRampAnswer_eq rq s1)))
    case slot =>
      exact congrArg _ ((take_checked htakes setAssemblySlotAnswer hlen hperm).trans
        (congrArg _ (setAssemblySlotAnswer_eq rq s1)))

end Sys2Proof.Machine

/-! PROOFS. Slots and the code at a boundary (O46): the latch and the word at a slot start, and what carrier control does in each
state of the code (R127, R149, R150, R159, R161, R170, R171). -/

namespace Sys2Proof.Machine

/-! ### The slot start (R150, R159, R161) -/

section

variable {label : Option Label} {s : State}

/-- The code keys a word: it is RUNNING or ENDING, and a word is current (R150). -/
def State.keysWord (s : State) : Bool := s.carrier.code.keys && s.assembler.current.isSome

theorem State.keysWord_iff :
    s.keysWord = true ↔
      (s.carrier.code = .running ∨ s.carrier.code = .ending) ∧ s.assembler.current.isSome = true := by
  rw [State.keysWord, CodeState.keys_eq, Bool.and_eq_true, Bool.or_eq_true, beq_iff_eq, beq_iff_eq]

/-- A slot start counts a word that it breaks, and touches no other counter (R161). -/
theorem slotStart_status (label : Option Label) (s : State) :
    (slotStart label s).status =
      if txHoldAsserted s && s.keysWord && offeredSymbol label s.assembler != .nil then (markBroken s).status
      else s.status := by
  unfold slotStart State.keysWord
  dsimp only
  split <;> rfl

/-- A symbol held back from a keyed word breaks it (R161). -/
theorem slotStart_of_suppressed (hkeyed : s.keysWord = true) (hheld : txHoldAsserted s = true)
    (hoffered : offeredSymbol label s.assembler ≠ .nil) :
    (slotStart label s).assembler = (markBroken s).assembler ∧ (slotStart label s).status = (markBroken s).status := by
  have hsuppressed : (txHoldAsserted s && s.keysWord && offeredSymbol label s.assembler != .nil) = true := by
    simp [hkeyed, hheld, hoffered]
  rw [slotStart_assembler, slotStart_status]
  exact ⟨if_pos hsuppressed, if_pos hsuppressed⟩

/-- No other slot start touches words or counters (R161). -/
theorem slotStart_of_not_suppressed
    (h : txHoldAsserted s = false ∨ ¬s.keysWord = true ∨ offeredSymbol label s.assembler = .nil) :
    (slotStart label s).assembler = s.assembler ∧ (slotStart label s).status = s.status := by
  have hsuppressed : ¬(txHoldAsserted s && s.keysWord && offeredSymbol label s.assembler != .nil) = true := by
    rcases h with h | h | h <;> simp [h]
  rw [slotStart_assembler, slotStart_status]
  exact ⟨if_neg hsuppressed, if_neg hsuppressed⟩

/-- The symbol latched at a slot start is the one offered, or NIL (R150, R159). -/
theorem slotStart_latch (label : Option Label) (s : State) :
    (slotStart label s).keying.latch = latchOf s.keying.profiles (profileInForce s)
      (if s.keysWord && !txHoldAsserted s then offeredSymbol label s.assembler else .nil) := by
  rw [slotStart_keying]
  rfl

/-! ### Carrier control at a boundary (R170, R171) -/

theorem carrierBoundary_of_running_or_off (h : s.carrier.code = .running ∨ s.carrier.code = .off) (label : Option Label)
    (handed : Bool) : carrierBoundary label handed s = s := by
  rcases h with h | h <;> rw [carrierBoundary, h]

theorem endsCode_iff : endsCode label = true ↔ ∀ lab, label = some lab → lab.second = 0 ∨ lab.mark ≠ .none := by
  cases label <;> simp [endsCode]

/-- ENDING code stops where a minute could begin, and takes the carrier down when asked to (R171). -/
theorem carrierBoundary_ending (h : s.carrier.code = .ending) (label : Option Label) (handed : Bool) :
    carrierBoundary label handed s =
      if endsCode label then
        if s.carrier.offAfter then fallAtBoundary (s.withCarrier { s.carrier with code := .off })
        else s.withCarrier { s.carrier with code := .off }
      else s := by
  rw [carrierBoundary, h]
  rfl

theorem fallAtBoundary_keying (s : State) :
    (fallAtBoundary s).keying =
      { s.keying with
        stepAmp := some (fullInForce s * (s.carrier.rampSetting - 1) / s.carrier.rampSetting) } := rfl

end

/-- Settles O46: the slot start by whether a word is keyed and held, and carrier control by the state of the code. -/
theorem slotsStartFromTheCode : Obligations.SlotsStartFromTheCode := by
  refine ⟨fun label s => ?slot, fun label handed s => ?carrier⟩
  case slot =>
    intro t offered keyed p
    have hoffered : offeredSymbol label s.assembler = offered := rfl
    have hkeyed : s.keysWord = true ↔ keyed := State.keysWord_iff
    have hlatch : t.keying.latch = _ := slotStart_latch label s
    have hkeying : t.keying = _ := slotStart_keying label s
    rw [hoffered] at hlatch
    refine ⟨by rw [hkeying], by rw [hkeying], by rw [hlatch]; rfl, fun hk hheld => ?keyed, fun hnil => ?nil,
      fun cw hcw hk hheld hne => ?suppressed, fun hnone => ?untouched⟩
    case keyed =>
      rw [hkeyed.2 hk, hheld] at hlatch
      exact ⟨by rw [hlatch]; rfl, by rw [hlatch]; rfl⟩
    case nil =>
      have hclosed : (s.keysWord && !txHoldAsserted s) = false := by
        rcases hnil with hk | hheld
        · rw [Bool.eq_false_iff.2 (mt hkeyed.1 hk), Bool.false_and]
        · rw [hheld, Bool.not_true, Bool.and_false]
      rw [hclosed] at hlatch
      exact ⟨by rw [hlatch]; rfl, by rw [hlatch]; rfl⟩
    case suppressed =>
      obtain ⟨hassembler, hstatus⟩ := slotStart_of_suppressed (hkeyed.2 hk) hheld (hoffered ▸ hne)
      refine ⟨?_, ?_⟩
      · rw [hassembler, markBroken_assembler, hcw]
        rfl
      · rw [hstatus, markBroken_status, hcw, ← countUp_eq]
        cases hbroken : cw.word.broken <;> simp [hbroken]
    case untouched =>
      exact slotStart_of_not_suppressed (hnone.imp_right (Or.imp_left (mt hkeyed.1)))
  case carrier =>
    intro t c
    refine ⟨fun harmed => carrierBoundary_armed harmed label handed,
      fun hkept => carrierBoundary_of_running_or_off hkept label handed, fun hending hwithin => ?within,
      fun hending hends => ?ends⟩
    case within =>
      obtain ⟨lab, hlabel, hsecond, hmark⟩ := hwithin
      have hgoes : ¬endsCode label = true := fun h => (endsCode_iff.1 h lab hlabel).elim hsecond (absurd hmark)
      exact (carrierBoundary_ending hending label handed).trans (if_neg hgoes)
    case ends =>
      have ht : t = if c.offAfter then fallAtBoundary (s.withCarrier { c with code := .off })
          else s.withCarrier { c with code := .off } :=
        (carrierBoundary_ending hending label handed).trans (if_pos (endsCode_iff.2 hends))
      refine ⟨fun hstays => ?_, fun hfalls => ?_⟩
      · rw [ht, if_neg (by simp [hstays])]
      · rw [ht, if_pos hfalls, fallAtBoundary_carrier, fallAtBoundary_keying]
        exact ⟨rfl, rfl⟩

end Sys2Proof.Machine

/-! PROOFS. REMOVE_OVERRIDE (O27), and the override stack over assemblies (O41): its merge into the view and its expiry (R138, R140,
R142, R143). -/

namespace Sys2Proof.Machine

/-! ### REMOVE_OVERRIDE taken (R138) -/

section

variable {rq : Request} {s : State}

theorem removeOverrideAnswer_range (h : 3 < rq.num 0) : removeOverrideAnswer rq s = refuse .range s := by
  rw [removeOverrideAnswer, if_pos h]

theorem removeOverrideAnswer_notFound (hposition : rq.num 0 ≤ 3) (h : s.stack.length ≤ rq.num 0) :
    removeOverrideAnswer rq s = refuse .notFound s := by
  rw [removeOverrideAnswer, if_neg (Nat.not_lt.2 hposition), if_pos h]

/-- The entries above the position stay, and those below it move up (R138). -/
theorem removeOverrideAnswer_of_lt (hposition : rq.num 0 ≤ 3) (h : rq.num 0 < s.stack.length) :
    removeOverrideAnswer rq s =
      carriedOut false (s.withStack (s.stack.take (rq.num 0) ++ s.stack.drop (rq.num 0 + 1))) := by
  rw [removeOverrideAnswer, if_neg (Nat.not_lt.2 hposition), if_neg (Nat.not_le.2 h), List.eraseIdx_eq_take_drop_succ]

/-- Removing at position 0 is popping (R137, R138). -/
theorem removeOverrideAnswer_zero {top : OverrideEntry} {rest : List OverrideEntry} (hposition : rq.num 0 = 0)
    (h : s.stack = top :: rest) : removeOverrideAnswer rq s = popOverrideAnswer rq s := by
  rw [removeOverrideAnswer_of_lt (by omega) (by simp [hposition, h]), popOverrideAnswer_cons h, hposition, h]
  rfl

end

/-- Settles O27, from the answer at each kind of position. -/
theorem removeOverrideByPosition : Obligations.RemoveOverrideByPosition := by
  intro src s rq htakes hlen hperm s1
  have hpopped : s1.stack = s.stack := by simp [s1]
  have htaken {answer : Answer} (h : removeOverrideAnswer rq s1 = answer) :
      exec (.removeOverride src) s = .next (finishTake rq answer) :=
    congrArg _ ((take_checked htakes removeOverrideAnswer hlen hperm).trans (congrArg _ h))
  rw [← hpopped]
  exact ⟨fun h => htaken (removeOverrideAnswer_range h),
    fun hposition h => htaken (removeOverrideAnswer_notFound hposition h),
    fun hposition h => htaken (removeOverrideAnswer_of_lt hposition h),
    fun hposition top rest h => htaken (removeOverrideAnswer_zero hposition h)⟩

/-! ### The merge (R140) -/

/-- A merge that asks the top entry first, and the entries below where it gives nothing, takes what the topmost entry that gives
something gives. -/
theorem merge_eq_topmost {β : Type} {merge : List OverrideEntry → β} {given : OverrideEntry → Option β} {normal : β}
    (hnil : merge [] = normal) (hcons : ∀ e rest, merge (e :: rest) = (given e).getD (merge rest))
    (stack : List OverrideEntry) : merge stack = (stack.findSome? given).getD normal := by
  induction stack with
  | nil => exact hnil
  | cons e rest ih =>
    rw [hcons, List.findSome?_cons, ih]
    cases given e <;> rfl

/-! ### The expiry over assemblies (R142, R143) -/

/-- What n assemblies leave of an entry: it stays with n minutes fewer, when it has more than n or no number of them (R143). -/
def OverrideEntry.after (n : Nat) (e : OverrideEntry) : Option OverrideEntry :=
  if e.remaining.all (n < ·) then some { e with remaining := e.remaining.map (· - n) } else none

namespace OverrideEntry

variable {e e' : OverrideEntry} {m n : Nat}

/-- An entry marked at the start boundary and taken through the expiry step has lived through one assembly (R142, R143). -/
theorem expire_mark_eq_after_one (h : e.mark = false) : { e with mark := true }.expire = e.after 1 := by
  obtain ⟨value, remaining, link, mark⟩ := e
  obtain rfl : mark = false := h
  rw [expire_marked _ rfl, after]
  cases remaining with
  | none => rfl
  | some minutes =>
    simp only [Option.any_some, Option.all_some, decide_eq_true_eq, ← Nat.not_le, ite_not]

theorem after_mark (h : e' ∈ e.after n) : e'.mark = e.mark := by
  obtain ⟨-, he⟩ := Option.ite_none_right_eq_some.1 h
  rw [← Option.some.inj he]

theorem after_of_lt {minutes : Nat} (he : e.remaining = some minutes) (h : n < minutes) :
    e.after n = some { e with remaining := some (minutes - n) } := by
  rw [after, he]
  exact if_pos (decide_eq_true h)

theorem after_of_le {minutes : Nat} (he : e.remaining = some minutes) (h : minutes ≤ n) : e.after n = none := by
  rw [after, he]
  exact if_neg (by simpa using h)

theorem after_of_none (he : e.remaining = none) (n : Nat) : e.after n = some e := by
  obtain ⟨value, remaining, link, mark⟩ := e
  obtain rfl : remaining = none := he
  rfl

theorem after_zero (h : e.Sound) : e.after 0 = some e := by
  cases he : e.remaining with
  | none => exact after_of_none he 0
  | some minutes =>
    obtain ⟨hlow, -⟩ := h minutes he
    rw [after_of_lt he hlow, Nat.sub_zero, ← he]

/-- What some assemblies leave, further assemblies go on from. -/
theorem after_bind_after (e : OverrideEntry) (m n : Nat) : (e.after m).bind (after n) = e.after (m + n) := by
  cases he : e.remaining with
  | none => rw [after_of_none he m, after_of_none he (m + n), Option.bind_some, after_of_none he n]
  | some minutes =>
    by_cases hfirst : m < minutes
    · rw [after_of_lt he hfirst, Option.bind_some]
      by_cases hlater : m + n < minutes
      · rw [after_of_lt rfl (Nat.lt_sub_iff_add_lt'.2 hlater), after_of_lt he hlater, Nat.sub_sub]
      · rw [after_of_le rfl (by omega), after_of_le he (by omega)]
    · rw [after_of_le he (by omega), after_of_le he (by omega), Option.bind_none]

end OverrideEntry

section

variable {stack : List OverrideEntry}

theorem filterMap_after (n : Nat) (stack : List OverrideEntry) :
    stack.filterMap (·.after n) =
      (stack.filter fun e => e.remaining.all (n < ·)).map fun e => { e with remaining := e.remaining.map (· - n) } := by
  rw [← List.filterMap_eq_map, List.filterMap_filter]
  rfl

/-- One assembly over an unmarked stack (R142, R143). -/
theorem expireStack_markAll (h : ∀ e ∈ stack, e.mark = false) :
    expireStack (markAll stack) = stack.filterMap (·.after 1) := by
  rw [expireStack, markAll, List.filterMap_map]
  exact List.filterMap_congr fun e he => OverrideEntry.expire_mark_eq_after_one (h e he)

theorem expireStack_markAll_iterate (n : Nat) (hmark : ∀ e ∈ stack, e.mark = false) (hsound : ∀ e ∈ stack, e.Sound) :
    (fun st => expireStack (markAll st))^[n] stack = stack.filterMap (·.after n) := by
  induction n with
  | zero =>
    calc stack = stack.filterMap some := List.filterMap_some.symm
      _ = stack.filterMap (·.after 0) :=
        List.filterMap_congr fun e he => (OverrideEntry.after_zero (hsound e he)).symm
  | succ n ih =>
    have hunmarked : ∀ e' ∈ stack.filterMap (·.after n), e'.mark = false := fun e' he' => by
      obtain ⟨e, he, hafter⟩ := List.mem_filterMap.1 he'
      exact (OverrideEntry.after_mark hafter).trans (hmark e he)
    rw [Function.iterate_succ_apply', ih, expireStack_markAll hunmarked, List.filterMap_filterMap]
    exact List.filterMap_congr fun e _ => e.after_bind_after n 1

end

/-- Settles O41: the merges ask the entries from the top, and the expiry is by induction on the number of assemblies. -/
theorem overridesMergeAndExpire : Obligations.OverridesMergeAndExpire := by
  refine ⟨fun stack selection f normal => ⟨?content, ?profile, ?flag⟩, fun n stack h => ?expiry⟩
  case content =>
    refine merge_eq_topmost rfl (fun e rest => ?_) stack
    rw [mergedContent]
    cases e.value <;> rfl
  case profile =>
    refine merge_eq_topmost rfl (fun e rest => ?_) stack
    rw [mergedProfile]
    cases e.value <;> rfl
  case flag =>
    refine merge_eq_topmost rfl (fun e rest => ?_) stack
    rw [mergedFlag]
    cases e.value with
    | content _ => rfl
    | profile _ => rfl
    | flag g v => by_cases hg : g = f <;> simp [hg]
  case expiry =>
    rw [expireStack_markAll_iterate n (fun e he => (h e he).1) (fun e he => (h e he).2), filterMap_after]

end Sys2Proof.Machine

/-! PROOFS. Carrier control (O21, O47): what the carrier part and the code part of CONTROL do in each state of carrier and code,
and how far a ramp has come after n keying steps (R164 to R170). -/

namespace Sys2Proof.Machine

section

variable {s : State}

/-! ### The carrier part (R164, R166, R167, R174) -/

theorem carrierPart_on (s : State) : carrierPart 1 s = carrierOn s := rfl

theorem carrierPart_off (s : State) : carrierPart 0 s = .ok (carrierOff s) := rfl

theorem carrierOn_of_halt (h : s.carrier.haltLatch = true ∨ haltAsserted s = true) : carrierOn s = .error .state :=
  if_pos (Bool.or_eq_true_iff.2 h)

section

variable (hlatch : s.carrier.haltLatch = false) (hhalt : haltAsserted s = false)
include hlatch hhalt

theorem carrierOn_of_off (h : s.carrier.state = .off) :
    carrierOn s = .ok (s.withCarrier
      { s.carrier with state := .rising, k := 0, rc := s.carrier.rampSetting, fr := fullInForce s, rampEnd := false }) := by
  simp [carrierOn, hlatch, hhalt, h, beginRamp]

/-- A fall that is turned goes on from where it is, under the Rc and Fr it has (R166). -/
theorem carrierOn_of_falling (h : s.carrier.state = .falling) :
    carrierOn s = .ok (s.withCarrier { s.carrier with state := .rising, rampEnd := false }) := by
  simp [carrierOn, hlatch, hhalt, h]

theorem carrierOn_of_up (h : s.carrier.state = .rising ∨ s.carrier.state = .steady) : carrierOn s = .ok s := by
  rcases h with h | h <;> simp [carrierOn, hlatch, hhalt, h]

end

theorem carrierOff_of_steady (hs : s.carrier.state = .steady) (hc : s.carrier.code = .off ∨ s.carrier.code = .armed) :
    carrierOff s = s.withCarrier
      { s.carrier with
        state := .falling, k := s.carrier.rampSetting, rc := s.carrier.rampSetting, fr := fullInForce s, code := .off,
        rampEnd := false } := by
  rcases hc with hc | hc <;> simp [carrierOff, hs, hc, CodeState.keys, beginRamp]

/-- While the code keys, the carrier stays up until the code has ended (R167, R171). -/
theorem carrierOff_of_keying (hs : s.carrier.state = .steady)
    (hc : s.carrier.code = .running ∨ s.carrier.code = .ending) :
    carrierOff s = s.withCarrier { s.carrier with code := .ending, offAfter := true } := by
  rcases hc with hc | hc <;> simp [carrierOff, hs, hc, CodeState.keys]

theorem carrierOff_of_rising (hs : s.carrier.state = .rising) :
    carrierOff s = s.withCarrier { s.carrier with state := .falling, code := .off, rampEnd := false } := by
  rw [carrierOff, hs]

theorem carrierOff_of_down (hs : s.carrier.state = .off ∨ s.carrier.state = .falling) : carrierOff s = s := by
  rcases hs with hs | hs <;> rw [carrierOff, hs]

/-! ### The code part (R168, R169) -/

theorem codePart_on (s : State) : codePart 1 s = codeOn s := rfl

theorem codePart_off (s : State) : codePart 0 s = .ok (codeOff s) := rfl

theorem codeOn_of_down (hs : s.carrier.state = .off ∨ s.carrier.state = .falling) : codeOn s = .error .state := by
  rcases hs with hs | hs <;> rw [codeOn, hs]

theorem codeOn_of_off (hs : s.carrier.state = .rising ∨ s.carrier.state = .steady) (hc : s.carrier.code = .off) :
    codeOn s = .ok (s.withCarrier { s.carrier with code := .armed }) := by
  rcases hs with hs | hs <;> simp [codeOn, hs, hc]

theorem codeOn_of_on (hs : s.carrier.state = .rising ∨ s.carrier.state = .steady)
    (hc : s.carrier.code = .armed ∨ s.carrier.code = .running) : codeOn s = .ok s := by
  rcases hs with hs | hs <;> rcases hc with hc | hc <;> simp [codeOn, hs, hc]

/-- A code that is ending runs on, unless the carrier is to go off with it (R168). -/
theorem codeOn_of_ending (hs : s.carrier.state = .steady) (hc : s.carrier.code = .ending) :
    codeOn s =
      if s.carrier.offAfter then .error .state else .ok (s.withCarrier { s.carrier with code := .running }) := by
  simp [codeOn, hs, hc]

theorem codeOff_of_running (hc : s.carrier.code = .running) :
    codeOff s = s.withCarrier { s.carrier with code := .ending } := by rw [codeOff, hc]

theorem codeOff_of_armed (hc : s.carrier.code = .armed) :
    codeOff s = s.withCarrier { s.carrier with code := .off } := by rw [codeOff, hc]

theorem codeOff_of_stopping (hc : s.carrier.code = .off ∨ s.carrier.code = .ending) : codeOff s = s := by
  rcases hc with hc | hc <;> rw [codeOff, hc]

end

/-- Settles O21, part by part and state by state. -/
theorem carrierAndCodePartsByState : Obligations.CarrierAndCodePartsByState := by
  rintro s c rfl
  simp only [carrierPart_on, carrierPart_off, codePart_on, codePart_off, Except.ok.injEq]
  refine ⟨carrierOn_of_halt,
    fun hlatch hhalt => ⟨carrierOn_of_off hlatch hhalt, carrierOn_of_falling hlatch hhalt, carrierOn_of_up hlatch hhalt⟩,
    carrierOff_of_steady, carrierOff_of_keying, carrierOff_of_rising, fun hs => ⟨carrierOff_of_down hs, codeOn_of_down hs⟩,
    codeOn_of_off, codeOn_of_on, fun hs hc hstays => ?runs, fun hs hc hfalls => ?falls, codeOff_of_running, codeOff_of_armed,
    codeOff_of_stopping⟩
  case runs => rw [codeOn_of_ending hs hc, if_neg (Bool.eq_false_iff.1 hstays)]
  case falls => rw [codeOn_of_ending hs hc, if_pos hfalls]

/-! ### Ramps (R165) -/

section

variable {c : Carrier} {n : Nat}

theorem Carrier.tick_of_rising (h : c.state = .rising) :
    c.tick =
      { c with k := min c.rc (c.k + 1), rampEnd := decide (min c.rc (c.k + 1) = c.rc), justSteady := false } := by
  rw [Carrier.tick, h]

theorem Carrier.tick_of_falling (h : c.state = .falling) :
    c.tick = { c with k := c.k - 1, rampEnd := decide (c.k - 1 = 0), justSteady := false } := by
  rw [Carrier.tick, h]

theorem Carrier.tick_iterate_of_rising (h : c.state = .rising) (hn : 1 ≤ n) (hk : c.k + n ≤ c.rc) :
    Carrier.tick^[n] c = { c with k := c.k + n, rampEnd := decide (c.k + n = c.rc), justSteady := false } := by
  induction n, hn using Nat.le_induction with
  | base => rw [Function.iterate_one, Carrier.tick_of_rising h, Nat.min_eq_right hk]
  | succ n hn ih =>
    have hwithin : min c.rc (c.k + n + 1) = c.k + (n + 1) := Nat.min_eq_right hk
    rw [Function.iterate_succ_apply', ih (by omega), Carrier.tick_of_rising]
    · simp only [hwithin]
    · exact h

theorem Carrier.tick_iterate_of_falling (h : c.state = .falling) (hn : 1 ≤ n) (hk : n ≤ c.k) :
    Carrier.tick^[n] c = { c with k := c.k - n, rampEnd := decide (c.k = n), justSteady := false } := by
  induction n, hn using Nat.le_induction with
  | base =>
    have hend : c.k - 1 = 0 ↔ c.k = 1 := by omega
    rw [Function.iterate_one, Carrier.tick_of_falling h]
    simp only [hend]
  | succ n hn ih =>
    have hend : c.k - (n + 1) = 0 ↔ c.k = n + 1 := by omega
    rw [Function.iterate_succ_apply', ih (by omega), Carrier.tick_of_falling]
    · simp only [Nat.sub_sub, hend]
    · exact h

theorem Carrier.amplitude_of_ramp (h : c.state = .rising ∨ c.state = .falling) :
    c.amplitude = some (c.fr * c.k / c.rc) := by
  rcases h with h | h <;> rw [Carrier.amplitude, h] <;> rfl

end

theorem completeFalling_of_end {s : State} (hs : s.carrier.state = .falling) (he : s.carrier.rampEnd = true) :
    completeFalling s = s.withCarrier { s.carrier with state := .off, rampEnd := false } := if_pos ⟨hs, he⟩

/-- Settles O47: the ramps by induction on their steps, and the commands that end them. -/
theorem rampsRunTheirLength : Obligations.RampsRunTheirLength := by
  refine ⟨fun c n hrc hn => ⟨fun hs hk => ?rising, fun hs hk => ?falling⟩,
    fun s hwrap hend => ⟨fun hs => ?risen, fun hs => ?fallen⟩⟩
  case rising =>
    intro d
    have hd : d = { c with k := c.k + n, rampEnd := decide (c.k + n = c.rc), justSteady := false } :=
      Carrier.tick_iterate_of_rising hs hn hk
    have hamp : d.amplitude = some (c.fr * (c.k + n) / c.rc) := by rw [hd]; exact Carrier.amplitude_of_ramp (.inl hs)
    refine ⟨hd, hamp, fun hfull => ?_⟩
    rw [hamp, hfull, Nat.mul_div_cancel _ hrc]
  case falling =>
    intro d
    have hd : d = { c with k := c.k - n, rampEnd := decide (c.k = n), justSteady := false } :=
      Carrier.tick_iterate_of_falling hs hn hk
    have hamp : d.amplitude = some (c.fr * (c.k - n) / c.rc) := by rw [hd]; exact Carrier.amplitude_of_ramp (.inr hs)
    refine ⟨hd, hamp, fun hempty => ?_⟩
    rw [hamp, hempty, Nat.sub_self, Nat.mul_zero, Nat.zero_div]
  case risen =>
    intro t
    have hcomplete : (if s.timebase.wrapDue then s else completeRising s) = t := by
      rw [hwrap, if_neg Bool.false_ne_true]
      exact completeRising_of_end hs hend
    exact ⟨congrArg Host.Outcome.next hcomplete, fun harmed => carrierBoundary_of_justSteady harmed rfl⟩
  case fallen =>
    have hcomplete : (if s.timebase.wrapDue then s else completeFalling s) =
        s.withCarrier { s.carrier with state := .off, rampEnd := false } := by
      rw [hwrap, if_neg Bool.false_ne_true]
      exact completeFalling_of_end hs hend
    exact congrArg Host.Outcome.next hcomplete

end Sys2Proof.Machine

/-! PROOFS. HALT (O48): when L1 asserts it, what its assertion leaves of carrier and code, and the two takes that assert it, by
the filter and by WRITE_LINES (R161, R173, R174, R178, R180, R186). -/

namespace Sys2Proof.Machine

section

variable {s t u : State}

/-! ### When HALT is asserted (R176, R177, R180) -/

/-- HALT is the one function of L1 (R176). -/
theorem holder_l1 (s : State) : holder s .l1 = if (s.line .l1).enables.getLsbD 0 then some .halt else none := by
  rw [holder, holderRank]
  show (List.find? _ [0]).bind _ = _
  rw [List.find?_cons]
  cases (s.line .l1).enables.getLsbD 0 <;> rfl

theorem isOutput_of_haltEnabled (h : (s.line .l1).enables.getLsbD 0 = true) : isOutput s .l1 = false := by
  rw [isOutput, holder_l1, if_pos h]
  rfl

/-- HALT is asserted when it is enabled on L1 and the level of L1 is 1. -/
theorem haltAsserted_eq (s : State) :
    haltAsserted s = ((s.line .l1).enables.getLsbD 0 && ((s.line .l1).filtered ^^ (s.line .l1).invert)) := by
  rw [haltAsserted, holder_l1]
  cases h : (s.line .l1).enables.getLsbD 0 with
  | false => rfl
  | true => exact congrArg (true && ·) (logicalLevel_input (isOutput_of_haltEnabled h))

theorem haltAsserted_of_lines (h : t.lineUnit.lines = s.lineUnit.lines) : haltAsserted t = haltAsserted s :=
  haltAsserted_congr (by rw [State.line, h, State.line])

theorem noteHalt_of_asserted (hs : haltAsserted s = false) (hu : haltAsserted u = true) :
    noteHalt s u = haltAssertion u := by rw [noteHalt_eq, if_pos ⟨hs, hu⟩]

/-! ### What the assertion leaves (R161, R173) -/

theorem haltAssertion_stops (s : State) :
    (haltAssertion s).carrier.code = .off ∧ (haltAssertion s).carrier.offAfter = false ∧
      (haltAssertion s).carrier.haltLatch = true := by
  rw [haltAssertion_carrier]
  cases s.carrier.state <;> exact ⟨rfl, rfl, rfl⟩

theorem haltAssertion_haltSeen (s : State) : (haltAssertion s).status.haltSeen = true := by
  unfold haltAssertion
  dsimp only
  split <;> simp

theorem haltAssertion_of_down (h : s.carrier.state = .off ∨ s.carrier.state = .falling) :
    (haltAssertion s).carrier.state = s.carrier.state ∧ (haltAssertion s).carrier.k = s.carrier.k := by
  rw [haltAssertion_carrier]
  rcases h with h | h <;> rw [h] <;> exact ⟨h, rfl⟩

/-- The Rc of the fall that a HALT brings: latched afresh in STEADY, that of the ramp otherwise (R164, R173). -/
def State.haltRc (s : State) : Nat := if s.carrier.state = .steady then s.carrier.rampSetting else s.carrier.rc

/-- The Fr of the fall that a HALT brings (R164, R173). -/
def State.haltFr (s : State) : Nat := if s.carrier.state = .steady then fullInForce s else s.carrier.fr

/-- The ramp position from which a HALT takes the carrier down (R173). -/
def State.haltPosition (s : State) : Nat := positionFor s.haltRc s.haltFr s.keying.keyOut.amplitude

theorem haltAssertion_of_up (h : s.carrier.state = .steady ∨ s.carrier.state = .rising) :
    (haltAssertion s).carrier =
      { s.carrier with
        state := if s.haltPosition = 0 then .off else .falling, k := s.haltPosition, rc := s.haltRc, fr := s.haltFr,
        code := .off, offAfter := false, haltLatch := true, rampEnd := false } := by
  rw [haltAssertion_carrier]
  rcases h with h | h <;> simp [h, State.haltPosition, State.haltRc, State.haltFr]

theorem positionFor_eq_zero_iff {rc fr a : Nat} (hrc : 1 ≤ rc) (hfr : 1 ≤ fr) : positionFor rc fr a = 0 ↔ a = 0 := by
  obtain ⟨-, hreached, hlowest⟩ := positionFor_spec (rc := rc) (a := a) hfr
  constructor
  · intro hzero
    have hpos := hreached (by omega)
    rw [hzero, Nat.mul_zero, Nat.le_zero, Nat.mul_eq_zero] at hpos
    omega
  · rintro rfl
    refine Nat.eq_zero_of_not_pos fun hpos => ?_
    simpa using hlowest 0 hpos

/-- One step down from the position of an amplitude the ramp is below it (R173). -/
theorem positionFor_next_lt {rc fr a : Nat} (hrc : 1 ≤ rc) (hfr : 1 ≤ fr) (ha : a ≠ 0) :
    fr * (positionFor rc fr a - 1) / rc < a := by
  obtain ⟨-, -, hlowest⟩ := positionFor_spec (rc := rc) (a := a) hfr
  have hpos : positionFor rc fr a ≠ 0 := mt (positionFor_eq_zero_iff hrc hfr).1 ha
  rw [Nat.div_lt_iff_lt_mul hrc, Nat.mul_comm a]
  exact hlowest _ (by omega)

/-! ### The takes that assert it (R178, R186) -/

/-- The second state has the first one's carrier control, keying generator and code assembler. -/
structure State.SameSignal (s t : State) : Prop where
  carrier : t.carrier = s.carrier
  keying : t.keying = s.keying
  assembler : t.assembler = s.assembler

theorem State.SameSignal.haltAssertion (h : s.SameSignal u) :
    (haltAssertion u).carrier = (haltAssertion s).carrier ∧
      (haltAssertion u).assembler = (haltAssertion s).assembler := by
  obtain ⟨hcarrier, hkeying, hassembler⟩ := h
  rw [haltAssertion_carrier, haltAssertion_carrier, haltAssertion_assembler, haltAssertion_assembler, markBroken_assembler,
    markBroken_assembler, hcarrier, hkeying, hassembler, fullInForce_congr hassembler hkeying]
  exact ⟨rfl, rfl⟩

/-- The second state is what a HALT assertion leaves of the first one, and HALT is asserted in it. -/
structure State.HaltTaken (s t : State) : Prop where
  carrier : t.carrier = (haltAssertion s).carrier
  assembler : t.assembler = (haltAssertion s).assembler
  haltSeen : t.status.haltSeen = true
  asserted : haltAsserted t = true

theorem State.SameSignal.haltTaken (h : s.SameSignal u) (hu : haltAsserted u = true) :
    s.HaltTaken (Machine.haltAssertion u) :=
  ⟨h.haltAssertion.1, h.haltAssertion.2, haltAssertion_haltSeen u, by rwa [haltAsserted_of_lines (s := u) (by simp)]⟩

theorem takeFilterChange_haltTaken (hdue : (s.line .l1).filterDue = true)
    (henabled : (s.line .l1).enables.getLsbD 0 = true) (hlevel : (s.line .l1).filtered = (s.line .l1).invert) :
    s.HaltTaken (takeFilterChange .l1 s) := by
  have hbefore : haltAsserted s = false := by simp [haltAsserted_eq, hlevel]
  rw [takeFilterChange_of_due hdue (isOutput_of_haltEnabled henabled)]
  generalize hu : noteEdge .l1 (!((s.line .l1).filtered ^^ (s.line .l1).invert)) (routedL6 s)
    (s.setLine .l1 { s.line .l1 with filtered := !(s.line .l1).filtered, run := 0, filterDue := false }) = u
  have hafter : haltAsserted u = true := by
    subst hu
    simp [haltAsserted_eq, noteEdge_line, henabled, hlevel]
  have hsame : s.SameSignal u := by
    subst hu
    exact ⟨by simp, by simp, by simp⟩
  rw [noteHalt_of_asserted hbefore hafter]
  exact hsame.haltTaken hafter

/-- The settings of a line change the lines first, and HALT follows (R180, R186). -/
theorem applyLineSettings_noteHalt (n : LineId) (w : LineSettings) (pins : PinIn) (s : State) :
    ∃ u, applyLineSettings n w pins s = noteHalt s u ∧ s.SameSignal u ∧
      (isOutput (s.setLine n ((s.line n).withSettings w)) n = false →
        (u.line n).enables = w.enables ∧ (u.line n).invert = w.invert ∧
          (u.line n).filtered = if isOutput s n then pinFound pins n w.pull else (s.line n).filtered) := by
  refine ⟨_, rfl, ?signal, fun hin => ?line⟩
  case signal =>
    split
    · exact ⟨by simp, by simp, by simp⟩
    · exact ⟨rfl, rfl, rfl⟩
  case line =>
    simp only [hin]
    cases isOutput s n
    · split <;> simp [noteEdge_line, LineState.withSettings]
    · simp [LineState.withSettings]

theorem applyLineSettings_haltTaken {w : LineSettings} {pins : PinIn} (hbefore : haltAsserted s = false)
    (henabled : w.enables.getLsbD 0 = true)
    (hlevel : ((if isOutput s .l1 then pinFound pins .l1 w.pull else (s.line .l1).filtered) ^^ w.invert) = true) :
    s.HaltTaken (applyLineSettings .l1 w pins s) := by
  obtain ⟨u, hu, hsame, hline⟩ := applyLineSettings_noteHalt .l1 w pins s
  have hin : isOutput (s.setLine .l1 ((s.line .l1).withSettings w)) .l1 = false :=
    isOutput_of_haltEnabled (by simpa [LineState.withSettings] using henabled)
  obtain ⟨henables, hinvert, hfiltered⟩ := hline hin
  have hafter : haltAsserted u = true := by
    rw [haltAsserted_eq, henables, hinvert, hfiltered, henabled, hlevel]
    rfl
  rw [hu, noteHalt_of_asserted hbefore hafter]
  exact hsame.haltTaken hafter

theorem popTaken_sameSignal (src : Link) (s : State) : s.SameSignal (popTaken src s) := ⟨rfl, rfl, rfl⟩

theorem popTaken_haltAsserted (src : Link) (s : State) : haltAsserted (popTaken src s) = haltAsserted s :=
  haltAsserted_of_lines (by simp)

/-- The reply to a request leaves what a HALT assertion has left (R28). -/
theorem State.HaltTaken.finishTake {src : Link} {rq : Request} {an : Answer}
    (h : (popTaken src s).HaltTaken an.state) : s.HaltTaken (finishTake rq an) := by
  obtain ⟨hcarrier, hassembler, hseen, hasserted⟩ := h
  obtain ⟨hcarrier', hassembler'⟩ := (popTaken_sameSignal src s).haltAssertion
  exact ⟨by simp [hcarrier, hcarrier'], by simp [hassembler, hassembler'], by simpa using hseen,
    by rwa [haltAsserted_of_lines (s := an.state) (by simp)]⟩

/-- The take of a WRITE_LINES that names a line and has valid settings for it (R186). -/
theorem exec_writeLines {src : Link} {pins : PinIn} {rq : Request} {n : LineId} {w : LineSettings}
    (htakes : Takes 0x1B src s rq) (hlen : rq.args.length = 8) (hperm : permitted s src .lines = true)
    (hn : lineOf (rq.arg 0) = some n) (hw : rq.lineSettings n = some w) :
    exec (.writeLines src pins) s =
      .next (finishTake rq (carriedOut (decide (15 < rq.num 7)) (applyLineSettings n w pins (popTaken src s)))) := by
  have hanswer : writeLinesAnswer pins rq (popTaken src s) =
      carriedOut (decide (15 < rq.num 7)) (applyLineSettings n w pins (popTaken src s)) := by
    rw [writeLinesAnswer, hn]
    dsimp only
    rw [hw]
  exact congrArg Host.Outcome.next ((take_checked htakes (writeLinesAnswer pins) hlen hperm).trans (by rw [hanswer]))

end

/-- Settles O48: both takes bring the assertion, whose fall begins at the position of the last amplitude. -/
theorem haltTakesTheCarrierDown : Obligations.HaltTakesTheCarrierDown := by
  intro s amp c halted
  have halted_of {t : State} (h : s.HaltTaken t) : halted t := by
    obtain ⟨hcarrier, hassembler, hseen, hasserted⟩ := h
    obtain ⟨hcode, hoff, hlatch⟩ := haltAssertion_stops s
    rw [haltAssertion_assembler] at hassembler
    refine ⟨hcarrier ▸ hcode, hcarrier ▸ hoff, hcarrier ▸ hlatch, hseen, hasserted, fun hrun cw hcw => ?broken,
      fun hrun => hassembler.trans (if_neg hrun), fun hdown => hcarrier ▸ haltAssertion_of_down hdown, fun hup => ?up⟩
    case broken =>
      rw [hassembler, if_pos hrun, markBroken_assembler, hcw]
      rfl
    case up =>
      rw [haltAssertion_of_up hup] at hcarrier
      refine ⟨by rw [hcarrier]; rfl, by rw [hcarrier]; rfl, fun hrc hfr => ?_⟩
      obtain ⟨hmax, hreached, hlowest⟩ := positionFor_spec (rc := s.haltRc) (a := amp) hfr
      have hzero := positionFor_eq_zero_iff (a := amp) hrc hfr
      rw [hcarrier]
      refine ⟨hmax, hreached, hlowest, ?_, positionFor_next_lt hrc hfr⟩
      exact if_congr hzero rfl rfl
  refine ⟨fun hdue henabled hlevel => ⟨_, rfl, halted_of (takeFilterChange_haltTaken hdue henabled hlevel)⟩,
    fun src pins rq w htakes hlen hperm hn hw hbefore henabled hlevel => ?written⟩
  case written =>
    have htaken : (popTaken src s).HaltTaken (applyLineSettings .l1 w pins (popTaken src s)) :=
      applyLineSettings_haltTaken ((popTaken_haltAsserted src s).trans hbefore) henabled hlevel
    exact ⟨_, exec_writeLines htakes hlen hperm hn hw, halted_of htaken.finishTake⟩

end Sys2Proof.Machine

/-! PROOFS. Every step keeps carrier and code in agreement (O55): what they are in each state of the carrier, and what the
operations of carrier control, the events and the requests make of it (R165 to R174). -/

namespace Sys2Proof.Machine

/-! ### Carrier and code by the state of the carrier -/

/-- What carrier control holds in each state of the carrier, under a HALT or none (R163 to R174). -/
inductive Carrier.Agrees (c : Carrier) (halt : Bool) : Prop
  | off (state : c.state = .off) (code : c.code = .off) (offAfter : c.offAfter = false) (k : c.k = 0)
      (rampEnd : c.rampEnd = false)
  | rising (state : c.state = .rising) (code : c.code = .off ∨ c.code = .armed) (offAfter : c.offAfter = false)
      (latch : c.haltLatch = false) (released : halt = false) (rampEnd : c.rampEnd = true → c.k = c.rc)
  | steady (state : c.state = .steady) (offAfter : c.offAfter = true → c.code = .ending) (latch : c.haltLatch = false)
      (released : halt = false) (k : c.k = c.rc) (rampEnd : c.rampEnd = false)
  | falling (state : c.state = .falling) (code : c.code = .off) (offAfter : c.offAfter = false)
      (rampEnd : c.rampEnd = true → c.k = 0)

theorem CodeState.not_keys {code : CodeState} (h : code.keys = false) : code = .off ∨ code = .armed := by
  cases code with
  | off => exact .inl rfl
  | armed => exact .inr rfl
  | running | ending => cases h

theorem carrierSound_iff (s : State) : CarrierSound s ↔ s.carrier.Agrees (haltAsserted s) := by
  unfold CarrierSound
  generalize haltAsserted s = halt
  obtain ⟨state, k, rampSetting, rc, fr, code, offAfter, haltLatch, rampEnd, justSteady⟩ := s.carrier
  dsimp only
  constructor
  · rintro ⟨hkeys, hup, hafter, hhalt, hoff, hsteady, hend⟩
    cases state with
    | off =>
      have hcode : code = .off := by simpa [CarrierState.up] using hup
      exact .off rfl hcode (by simpa [hcode] using hafter) (hoff rfl) (by simpa using hend)
    | rising =>
      have hcode : code = .off ∨ code = .armed := CodeState.not_keys (by simpa using hkeys)
      obtain ⟨hlatch, hreleased⟩ : haltLatch = false ∧ halt = false := by simpa [CarrierState.up] using hhalt
      exact .rising rfl hcode (by rcases hcode with h | h <;> simpa [h] using hafter) hlatch hreleased (by simpa using hend)
    | steady =>
      obtain ⟨hlatch, hreleased⟩ : haltLatch = false ∧ halt = false := by simpa [CarrierState.up] using hhalt
      exact .steady rfl hafter hlatch hreleased (hsteady rfl) (by simpa using hend)
    | falling =>
      have hcode : code = .off := by simpa [CarrierState.up] using hup
      exact .falling rfl hcode (by simpa [hcode] using hafter) (by simpa using hend)
  · rintro (⟨rfl, rfl, rfl, rfl, rfl⟩ | ⟨rfl, hcode, rfl, rfl, rfl, hend⟩ | ⟨rfl, hafter, rfl, rfl, hk, hend⟩ |
      ⟨rfl, rfl, rfl, hend⟩)
    · simp [CodeState.keys, CarrierState.up]
    · rcases hcode with rfl | rfl <;> simpa [CodeState.keys, CarrierState.up] using hend
    · obtain rfl : rampEnd = false := hend
      simpa [CarrierState.up] using And.intro hafter hk
    · simpa [CodeState.keys, CarrierState.up] using hend

section

variable {s t : State} {c : Carrier} {halt : Bool}

theorem CarrierSound.agrees (h : CarrierSound s) : s.carrier.Agrees (haltAsserted s) := (carrierSound_iff s).1 h

/-- What leaves the lines leaves HALT, so that carrier control alone is at stake. -/
theorem CarrierSound.of_lines (hl : t.lineUnit.lines = s.lineUnit.lines) (hc : t.carrier.Agrees (haltAsserted s)) :
    CarrierSound t := by
  rwa [carrierSound_iff, haltAsserted_of_lines hl]

theorem CarrierSound.congr (h : CarrierSound s) (hl : t.lineUnit.lines = s.lineUnit.lines) (hc : t.carrier = s.carrier) :
    CarrierSound t := .of_lines hl (hc ▸ h.agrees)

theorem carrierSound_withCarrier (h : c.Agrees (haltAsserted s)) : CarrierSound (s.withCarrier c) := .of_lines rfl h

/-! ### Operations of carrier control (R165, R166 to R171, R173) -/

/-- The end of HALT, a clear of the halt latch and a new ramp length leave carrier and code in agreement (R164, R174). -/
theorem Carrier.Agrees.ease (h : c.Agrees halt) {latch halt' : Bool} (hlatch : latch = true → c.haltLatch = true)
    (hhalt : halt' = true → halt = true) (n : Nat) :
    ({ c with haltLatch := latch, rampSetting := n } : Carrier).Agrees halt' := by
  have clear {a b : Bool} (hab : a = true → b = true) (hb : b = false) : a = false := by simpa [hb] using hab
  cases h with
  | off state code offAfter k rampEnd => exact .off state code offAfter k rampEnd
  | rising state code offAfter clearLatch released rampEnd =>
    exact .rising state code offAfter (clear hlatch clearLatch) (clear hhalt released) rampEnd
  | steady state offAfter clearLatch released k rampEnd =>
    exact .steady state offAfter (clear hlatch clearLatch) (clear hhalt released) k rampEnd
  | falling state code offAfter rampEnd => exact .falling state code offAfter rampEnd

theorem Carrier.tick_of_off (h : c.state = .off) : c.tick = { c with k := 0, justSteady := false } := by
  rw [Carrier.tick, h]

theorem Carrier.tick_of_steady (h : c.state = .steady) : c.tick = { c with justSteady := false } := by
  rw [Carrier.tick, h]

theorem Carrier.Agrees.tick (h : c.Agrees halt) : c.tick.Agrees halt := by
  cases h with
  | off state code offAfter k rampEnd =>
    rw [Carrier.tick_of_off state]
    exact .off state code offAfter rfl rampEnd
  | rising state code offAfter latch released rampEnd =>
    rw [Carrier.tick_of_rising state]
    exact .rising state code offAfter latch released of_decide_eq_true
  | steady state offAfter latch released k rampEnd =>
    rw [Carrier.tick_of_steady state]
    exact .steady state offAfter latch released k rampEnd
  | falling state code offAfter rampEnd =>
    rw [Carrier.tick_of_falling state]
    exact .falling state code offAfter of_decide_eq_true

/-- A code that keys is on a STEADY carrier (R168). -/
theorem Carrier.Agrees.steady_of_code (h : c.Agrees halt) (hc : c.code = .running ∨ c.code = .ending) :
    c.state = .steady := by
  cases h with
  | steady state => exact state
  | off _ code | falling _ code => simp [code] at hc
  | rising _ code => rcases code with code | code <;> simp [code] at hc

theorem Carrier.Agrees.ending_of_offAfter (h : c.Agrees halt) (ho : c.offAfter = true) : c.code = .ending := by
  cases h with
  | steady _ offAfter => exact offAfter ho
  | off _ _ offAfter | rising _ _ offAfter | falling _ _ offAfter => cases ho.symm.trans offAfter

theorem Carrier.Agrees.offAfter_of_code (h : c.Agrees halt) (hc : c.code ≠ .ending) : c.offAfter = false :=
  Bool.eq_false_iff.2 (mt h.ending_of_offAfter hc)

/-- On a STEADY carrier the code may change while the carrier-off-after-minute flag is clear, or to ENDING (R167, R168). -/
theorem Carrier.Agrees.recode (h : c.Agrees halt) (hs : c.state = .steady) {code : CodeState} {offAfter : Bool}
    (hc : offAfter = true → code = .ending) :
    ({ c with code := code, offAfter := offAfter } : Carrier).Agrees halt := by
  cases h with
  | steady state _ latch released k rampEnd => exact .steady state hc latch released k rampEnd
  | off state | rising state | falling state => cases hs.symm.trans state

/-- A boundary starts code on a STEADY carrier alone, and takes the carrier down with the code that ends (R170, R171). -/
theorem carrierBoundary_agrees (h : s.carrier.Agrees halt) (label : Option Label) (handed : Bool) :
    (carrierBoundary label handed s).carrier.Agrees halt := by
  cases hcode : s.carrier.code with
  | off | running =>
    rw [carrierBoundary_of_running_or_off (by simp [hcode])]
    exact h
  | armed =>
    rw [carrierBoundary_armed hcode]
    split
    · next hstart =>
      obtain ⟨-, -, hsteady, -⟩ := hstart
      have hafter : s.carrier.offAfter = false := h.offAfter_of_code (by simp [hcode])
      exact h.recode hsteady (by simp [hafter])
    · exact h
  | ending =>
    rw [carrierBoundary_ending hcode]
    split
    · split
      · rw [fallAtBoundary_carrier]
        exact .falling rfl rfl rfl nofun
      · next hstays => exact h.recode (h.steady_of_code (.inr hcode)) fun ho => absurd ho hstays
    · exact h

theorem completeRising_agrees (h : s.carrier.Agrees halt) : (completeRising s).carrier.Agrees halt := by
  unfold completeRising
  split
  · next hend =>
    obtain ⟨hrising, hramp⟩ := hend
    cases h with
    | rising _ _ offAfter latch released rampEnd =>
      exact .steady rfl (by simp [offAfter]) latch released (rampEnd hramp) rfl
    | off state | steady state | falling state => cases hrising.symm.trans state
  · exact h

theorem completeFalling_agrees (h : s.carrier.Agrees halt) : (completeFalling s).carrier.Agrees halt := by
  unfold completeFalling
  split
  · next hend =>
    obtain ⟨hfalling, hramp⟩ := hend
    cases h with
    | falling _ code offAfter rampEnd => exact .off rfl code offAfter (rampEnd hramp) rfl
    | off state | rising state | steady state => cases hfalling.symm.trans state
  · exact h

/-- A carrier that HALT takes down agrees with its code whether HALT stays asserted or not (R173). -/
theorem haltAssertion_agrees (h : s.carrier.Agrees halt) (halt' : Bool) : (haltAssertion s).carrier.Agrees halt' := by
  have taken (hup : s.carrier.state = .steady ∨ s.carrier.state = .rising) :
      (haltAssertion s).carrier.Agrees halt' := by
    rw [haltAssertion_of_up hup]
    by_cases hzero : s.haltPosition = 0
    · exact .off (if_pos hzero) rfl rfl hzero rfl
    · exact .falling (if_neg hzero) rfl rfl nofun
  cases h with
  | steady state => exact taken (.inl state)
  | rising state => exact taken (.inr state)
  | off state _ _ k rampEnd =>
    rw [haltAssertion_carrier, state]
    exact .off state rfl rfl k rampEnd
  | falling state _ _ rampEnd =>
    rw [haltAssertion_carrier, state]
    exact .falling state rfl rfl rampEnd

/-- A change of the lines keeps the agreement, because a HALT that it asserts takes the carrier down (R173, R180). -/
theorem CarrierSound.noteHalt (h : CarrierSound s) (hc : t.carrier = s.carrier) : CarrierSound (noteHalt s t) := by
  have hagrees : t.carrier.Agrees (haltAsserted s) := hc ▸ h.agrees
  rw [noteHalt_eq]
  split
  · exact .of_lines (s := t) (by simp) (haltAssertion_agrees hagrees _)
  · next hnot =>
    have hkept (ht : haltAsserted t = true) : haltAsserted s = true :=
      Bool.of_not_eq_false fun hs => hnot ⟨hs, ht⟩
    exact .of_lines (s := t) rfl (hagrees.ease id hkept _)

/-! ### The boundary and the pulses (R41 to R55) -/

/-- Of a second boundary, carrier control's share is its own (R170, R171). -/
theorem secondBoundary_agrees (h : s.carrier.Agrees halt) (cause : BoundaryCause) :
    (secondBoundary cause s).carrier.Agrees halt := by
  unfold secondBoundary
  dsimp only
  simp only [formSample_frame, startStrobes_frame, slotStart_frame]
  exact carrierBoundary_agrees (by simpa using h) _ _

theorem PulseOutcome.agrees (hp : PulseOutcome s t) (h : s.carrier.Agrees halt) : t.carrier.Agrees halt := by
  cases hp with
  | kept _ same => exact same.carrier ▸ h
  | realigned _ same => simpa [same.carrier] using h
  | boundary cause _ same => exact secondBoundary_agrees (same.carrier ▸ h) cause

theorem takePulse_carrierSound (h : CarrierSound s) (x : Link) : CarrierSound (takePulse x s) :=
  .of_lines (takePulse_pulseFrame x s).lines ((takePulse_outcome x s).agrees h.agrees)

theorem takeWaiting_carrierSound (h : CarrierSound s) (x : Link) : CarrierSound (takeWaiting x s) := by
  unfold takeWaiting
  split
  · exact takePulse_carrierSound (h.congr (by simp) (by simp)) x
  · exact h

theorem takeL6Pulse_carrierSound (h : CarrierSound s) : CarrierSound (takeL6Pulse s) := by
  unfold takeL6Pulse
  split
  · exact takePulse_carrierSound (h.congr (by simp) (by simp)) .b
  · exact h

theorem takeEdge_carrierSound (h : CarrierSound s) (i : PulseInput) : CarrierSound (takeEdge i s) := by
  cases i with
  | ppsA => exact takePulse_carrierSound h .a
  | ppsB =>
    simp only [takeEdge]
    split
    · exact h
    · exact takePulse_carrierSound h .b
  | lineL6 => exact takeL6Pulse_carrierSound h

theorem takeWrap_carrierSound (h : CarrierSound s) : CarrierSound (takeWrap s) := by
  unfold takeWrap
  split
  · exact .of_lines (secondBoundary_pulseFrame .a .advance s).lines (secondBoundary_agrees h.agrees .advance)
  · exact h

/-! ### The keying step and its events (R40, R165, R173, R178) -/

theorem takeFilterChange_carrierSound (h : CarrierSound s) (n : LineId) : CarrierSound (takeFilterChange n s) := by
  unfold takeFilterChange
  split
  · exact h.noteHalt (by simp)
  · exact h

theorem takeFilterChanges_carrierSound (h : CarrierSound s) : CarrierSound (takeFilterChanges s) := by
  unfold takeFilterChanges
  induction allLines generalizing s with
  | nil => exact h
  | cons n rest ih => exact ih (takeFilterChange_carrierSound h n)

theorem formWrap_carrierSound (h : CarrierSound s) : CarrierSound (formWrap s) := by
  have routed : CarrierSound (if routedL6 s then takeFilterChange .l6 s else s) := by
    split
    · exact takeFilterChange_carrierSound h .l6
    · exact h
  exact (takeWrap_carrierSound (takeL6Pulse_carrierSound routed)).congr rfl rfl

theorem endStrobe_lines (k : Strobe) (s : State) : (endStrobe k s).lineUnit.lines = s.lineUnit.lines := by
  unfold endStrobe
  split <;> rfl

theorem endStrobe_carrierSound (h : CarrierSound s) (k : Strobe) : CarrierSound (endStrobe k s) :=
  h.congr (endStrobe_lines k s) (by simp)

theorem takeMissing_carrierSound (h : CarrierSound s) (x : Link) : CarrierSound (takeMissing x s) :=
  h.congr (by simp) (by simp)

theorem completeRising_carrierSound (h : CarrierSound s) : CarrierSound (completeRising s) :=
  .of_lines (by simp) (completeRising_agrees h.agrees)

theorem completeFalling_carrierSound (h : CarrierSound s) : CarrierSound (completeFalling s) :=
  .of_lines (by simp) (completeFalling_agrees h.agrees)

theorem closeStep_carrierSound (h : CarrierSound s) : CarrierSound (closeStep s) := by
  have wrapped {u : State} (hu : CarrierSound u) :
      CarrierSound (if u.timebase.wrapDue then formWrap u else takeL6Pulse u) := by
    split
    · exact formWrap_carrierSound hu
    · exact takeL6Pulse_carrierSound hu
  have missed := takeMissing_carrierSound (takeMissing_carrierSound (wrapped (takeFilterChanges_carrierSound h)) .a) .b
  have strobes := endStrobe_carrierSound (endStrobe_carrierSound (endStrobe_carrierSound missed .minute) .slot) .second
  exact completeFalling_carrierSound (completeRising_carrierSound strobes)

/-- A sample of a pin marks a filter change and takes none, so that HALT stays as it is (R178, R180). -/
theorem openStep_haltAsserted (pins : PinIn) (s : State) : haltAsserted (openStep pins s) = haltAsserted s := by
  have sampled (ln : LineState) (raw : Bool) :
      (ln.sample raw).enables = ln.enables ∧ (ln.sample raw).filtered = ln.filtered ∧
        (ln.sample raw).invert = ln.invert := by
    unfold LineState.sample
    repeat' split
    all_goals exact ⟨rfl, rfl, rfl⟩
  rw [haltAsserted_eq, haltAsserted_eq, openStep_line]
  split
  · rfl
  · obtain ⟨henables, hfiltered, hinvert⟩ := sampled (s.line .l1) (pinFound pins .l1 (s.line .l1).pull)
    rw [henables, hfiltered, hinvert]

theorem openStep_carrierSound (h : CarrierSound s) (pins : PinIn) : CarrierSound (openStep pins s) := by
  rw [carrierSound_iff, openStep_haltAsserted, openStep_carrier]
  exact h.agrees.tick

theorem keyingStep_carrierSound (h : CarrierSound s) (pins : PinIn) :
    CarrierSound (takeWaiting .b (takeWaiting .a (openStep pins (closeStep s)))) :=
  takeWaiting_carrierSound (takeWaiting_carrierSound (openStep_carrierSound (closeStep_carrierSound h) pins) .a) .b

theorem execPulse_carrierSound (h : CarrierSound s) (i : PulseEdges) (ht : execPulse i s = .next t) : CarrierSound t := by
  have wrapped (w : Bool) {u : State} (hu : CarrierSound u) : CarrierSound (if w then formWrap u else u) := by
    cases w
    · exact hu
    · exact formWrap_carrierSound hu
  obtain ⟨input, also⟩ := i
  obtain rfl := Host.Outcome.next.inj ht
  have taken := takeEdge_carrierSound h input
  cases also with
  | some k => exact wrapped _ (takeEdge_carrierSound taken k)
  | none => exact wrapped _ taken

/-! ### The events -/

/-- Both resets leave the carrier OFF without code (R163). -/
theorem carrierSound_of_reset (hstate : s.carrier.state = .off) (hcode : s.carrier.code = .off)
    (hafter : s.carrier.offAfter = false) (hk : s.carrier.k = 0) (hend : s.carrier.rampEnd = false) : CarrierSound s :=
  (carrierSound_iff s).2 (.off hstate hcode hafter hk hend)

theorem event_carrierSound {e : Instr} (he : sourceOf e = none) (h : CarrierSound s) (ht : exec e s = .next t) :
    CarrierSound t := by
  cases e <;> simp only [sourceOf, reduceCtorEq] at he
  case pulse i => exact execPulse_carrierSound h i ht
  all_goals obtain rfl := Host.Outcome.next.inj ht
  case powerOnReset pins => exact carrierSound_of_reset rfl rfl rfl rfl rfl
  case keyingStep pins => exact keyingStep_carrierSound h pins
  case lineFilterChange n => exact takeFilterChange_carrierSound h n
  case missingSecond x => exact takeMissing_carrierSound h x
  case strobeEnd k => exact endStrobe_carrierSound h k
  case flywheelWrap =>
    split
    · exact formWrap_carrierSound h
    · exact h
  case risingComplete =>
    split
    · exact h
    · exact completeRising_carrierSound h
  case fallingComplete =>
    split
    · exact h
    · exact completeFalling_carrierSound h
  case replyComplete l =>
    split
    · split
      · exact carrierSound_of_reset rfl rfl rfl rfl rfl
      · exact h.congr (by simp) (by simp)
    all_goals exact h
  case byteReceived | characterFault | idle | leadExpiry | tailExpiry | characterInProgressCompleted |
      assemblyCompletion =>
    repeat' split
    all_goals exact h.congr (by simp) (by simp)

/-! ### CONTROL (R34, R166 to R169) -/

theorem carrierOn_carrierSound (h : CarrierSound s) (he : carrierOn s = .ok t) : CarrierSound t := by
  by_cases hhalt : s.carrier.haltLatch = true ∨ haltAsserted s = true
  · cases (carrierOn_of_halt hhalt).symm.trans he
  · obtain ⟨hlatch, hreleased⟩ := not_or.1 hhalt
    rw [Bool.not_eq_true] at hlatch hreleased
    cases h.agrees with
    | off state code offAfter =>
      cases (carrierOn_of_off hlatch hreleased state).symm.trans he
      exact carrierSound_withCarrier (.rising rfl (.inl code) offAfter hlatch hreleased nofun)
    | falling state code offAfter =>
      cases (carrierOn_of_falling hlatch hreleased state).symm.trans he
      exact carrierSound_withCarrier (.rising rfl (.inl code) offAfter hlatch hreleased nofun)
    | rising state =>
      cases (carrierOn_of_up hlatch hreleased (.inl state)).symm.trans he
      exact h
    | steady state =>
      cases (carrierOn_of_up hlatch hreleased (.inr state)).symm.trans he
      exact h

theorem carrierOff_carrierSound (h : CarrierSound s) : CarrierSound (carrierOff s) := by
  cases h.agrees with
  | off state => rwa [carrierOff_of_down (.inl state)]
  | falling state => rwa [carrierOff_of_down (.inr state)]
  | rising state _ offAfter =>
    rw [carrierOff_of_rising state]
    exact carrierSound_withCarrier (.falling rfl rfl offAfter nofun)
  | steady state =>
    cases hcode : s.carrier.code with
    | off | armed =>
      rw [carrierOff_of_steady state (by simp [hcode])]
      exact carrierSound_withCarrier (.falling rfl rfl (h.agrees.offAfter_of_code (by simp [hcode])) nofun)
    | running | ending =>
      rw [carrierOff_of_keying state (by simp [hcode])]
      exact carrierSound_withCarrier (h.agrees.recode state fun _ => rfl)

theorem codeOn_carrierSound (h : CarrierSound s) (he : codeOn s = .ok t) : CarrierSound t := by
  cases h.agrees with
  | off state => cases (codeOn_of_down (.inl state)).symm.trans he
  | falling state => cases (codeOn_of_down (.inr state)).symm.trans he
  | rising state code offAfter latch released rampEnd =>
    rcases code with code | code
    · cases (codeOn_of_off (.inl state) code).symm.trans he
      exact carrierSound_withCarrier (.rising state (.inr rfl) offAfter latch released rampEnd)
    · cases (codeOn_of_on (.inl state) (.inl code)).symm.trans he
      exact h
  | steady state =>
    cases hcode : s.carrier.code with
    | off =>
      cases (codeOn_of_off (.inr state) hcode).symm.trans he
      have hafter : s.carrier.offAfter = false := h.agrees.offAfter_of_code (by simp [hcode])
      exact carrierSound_withCarrier (h.agrees.recode state (by simp [hafter]))
    | armed | running =>
      cases (codeOn_of_on (.inr state) (by simp [hcode])).symm.trans he
      exact h
    | ending =>
      rw [codeOn_of_ending state hcode] at he
      split at he
      · cases he
      · next hstays =>
        cases he
        exact carrierSound_withCarrier (h.agrees.recode state fun ho => absurd ho hstays)

theorem codeOff_carrierSound (h : CarrierSound s) : CarrierSound (codeOff s) := by
  cases hcode : s.carrier.code with
  | off | ending => rwa [codeOff_of_stopping (by simp [hcode])]
  | running =>
    rw [codeOff_of_running hcode]
    exact carrierSound_withCarrier (h.agrees.recode (h.agrees.steady_of_code (.inl hcode)) fun _ => rfl)
  | armed =>
    have hafter : s.carrier.offAfter = false := h.agrees.offAfter_of_code (by simp [hcode])
    rw [codeOff_of_armed hcode]
    cases h.agrees with
    | rising state _ _ latch released rampEnd =>
      exact carrierSound_withCarrier (.rising state (.inl rfl) hafter latch released rampEnd)
    | steady state => exact carrierSound_withCarrier (h.agrees.recode state (by simp [hafter]))
    | off _ code | falling _ code => cases hcode.symm.trans code

theorem carrierPart_carrierSound {b : Byte} (h : CarrierSound s) (he : carrierPart b s = .ok t) : CarrierSound t := by
  unfold carrierPart at he
  split at he
  · exact carrierOn_carrierSound h he
  · cases he
    exact carrierOff_carrierSound h
  · cases he

theorem codePart_carrierSound {b : Byte} (h : CarrierSound s) (he : codePart b s = .ok t) : CarrierSound t := by
  unfold codePart at he
  split at he
  · exact codeOn_carrierSound h he
  · cases he
    exact codeOff_carrierSound h
  · cases he

theorem controlAnswer_carrierSound (h : CarrierSound s) (rq : Request) : CarrierSound (controlAnswer rq s).state := by
  have kept_of {b : Bool} {part : Except Reason State} {u v : State} (hu : CarrierSound u)
      (hpart : part = .ok v → CarrierSound v) (he : (if b then part else .ok u) = .ok v) : CarrierSound v := by
    cases b
    · cases he
      exact hu
    · exact hpart he
  by_cases hlen : rq.args.length = 6
  · cases h1 : (if keptPart rq s 0 .carrier then carrierPart (rq.arg 1) s else .ok s) with
    | error r => exact controlAnswer_carrier_refused hlen h1 ▸ h
    | ok s1 =>
      have hs1 : CarrierSound s1 := kept_of h (carrierPart_carrierSound h) h1
      cases h2 : (if keptPart rq s 1 .code then codePart (rq.arg 2) s1 else .ok s1) with
      | error r => exact controlAnswer_code_refused hlen h1 h2 ▸ h
      | ok s2 =>
        rw [controlAnswer_applied hlen h1 h2]
        exact (kept_of hs1 (codePart_carrierSound hs1) h2).congr rfl rfl
  · rw [controlAnswer, if_pos hlen]
    exact h

/-! ### All requests (R26 to R28, R164, R174, R186) -/

/-- Carrier and code agree in the second state if they do in the first. -/
def State.KeepsCarrier (s t : State) : Prop := CarrierSound s → CarrierSound t

theorem State.KeepsCarrier.of_same (hl : t.lineUnit.lines = s.lineUnit.lines) (hc : t.carrier = s.carrier) :
    s.KeepsCarrier t := fun h => h.congr hl hc

theorem setRampAnswer_keepsCarrier (rq : Request) (s : State) : s.KeepsCarrier (setRampAnswer rq s).state :=
  fun h => carrierSound_withCarrier (h.agrees.ease id id _)

theorem writeLinesAnswer_keepsCarrier (pins : PinIn) (rq : Request) (s : State) :
    s.KeepsCarrier (writeLinesAnswer pins rq s).state := by
  intro h
  unfold writeLinesAnswer
  split
  · split
    · exact h
    · next n _ _ w _ =>
      obtain ⟨u, hu, hsame, -⟩ := applyLineSettings_noteHalt n w pins s
      rw [carriedOut_state, hu]
      exact h.noteHalt hsame.carrier
  · split
    · exact h.congr rfl rfl
    · exact h

/-- The clear option ends the halt latch and leaves the levels of the lines (R174, R192). -/
theorem clearStatus_carrierSound (h : CarrierSound s) : CarrierSound (clearStatus s) := by
  have hhalt : haltAsserted (clearStatus s) = haltAsserted s := by
    rw [haltAsserted_eq, haltAsserted_eq, clearStatus_line]
  rw [carrierSound_iff, hhalt]
  exact h.agrees.ease (latch := false) nofun id _

theorem readStatusAnswer_keepsCarrier (rq : Request) (s : State) : s.KeepsCarrier (readStatusAnswer rq s).state := by
  intro h
  have captured : CarrierSound (captureStatus rq s).state := by
    rw [captureStatus, readOn, readAnswer_state]
    split
    · exact h.congr rfl rfl
    · exact h
  unfold readStatusAnswer
  split
  · exact h
  · split
    · exact h
    · dsimp only
      split
      · exact clearStatus_carrierSound captured
      · exact captured

theorem blockAnswers_keepsCarrier {pins : PinIn} {own : Request → State → Answer} (ho : own ∈ blockAnswers pins)
    (rq : Request) (s : State) : s.KeepsCarrier (own rq s).state := by
  revert own
  simp only [blockAnswers, List.forall_mem_cons, List.not_mem_nil, IsEmpty.forall_iff, implies_true, and_true,
    writeLinesAnswer_keepsCarrier, setRampAnswer_keepsCarrier]
  and_intros
  all_goals
    simp only [setPermissionsAnswer, softRestartAnswer, setBalanceAnswer, setCivilAnswer, setWindowsAnswer, addLeapAnswer,
      deleteLeapAnswer, addTransitionAnswer, deleteTransitionAnswer, writeMapOwn, copyMapAnswer, commitMapAnswer,
      cancelCommitAnswer, writeTestOwn, pushOverrideAnswer, popOverrideAnswer, removeOverrideAnswer, writeProfileAnswer,
      setAssemblySlotAnswer]
    repeat' split
    all_goals exact .of_same rfl rfl

theorem linkAnswers_keepsCarrier {wire : WireIn} {own : Request → State → Answer} (ho : own ∈ linkAnswers wire)
    (rq : Request) (s : State) : s.KeepsCarrier (own rq s).state := by
  revert own
  simp only [linkAnswers, List.forall_mem_cons, List.not_mem_nil, IsEmpty.forall_iff, implies_true, and_true,
    readStatusAnswer_keepsCarrier]
  and_intros
  all_goals
    simp only [setLinkAnswer, setReturnLimitAnswer, disableLinkAnswer, enableLinkAnswer, setTimebaseAnswer, disableEffect,
      enableEffect]
    repeat' split
    all_goals exact .of_same (by simp) (by simp)

theorem ownAnswers_keepsCarrier {pins : PinIn} {wire : WireIn} {own : Request → State → Answer}
    (ho : own ∈ ownAnswers pins wire) (rq : Request) (s : State) : s.KeepsCarrier (own rq s).state := by
  simp only [ownAnswers, List.mem_append] at ho
  rcases ho with hlink | hblock | hread
  · exact linkAnswers_keepsCarrier hlink rq s
  · exact blockAnswers_keepsCarrier hblock rq s
  · rw [readAnswers_state hread rq s]
    exact .of_same rfl rfl

end

/-- What a step needs to keep carrier and code in agreement (R26 to R28; log 2). -/
theorem keepsCarrier_stepClosed : StepClosed State.KeepsCarrier where
  refl _ h := h
  trans h1 h2 h := h2 (h1 h)
  withPending _ _ := .of_same rfl rfl
  popTaken _ _ := .of_same rfl rfl
  finishTake _ _ := .of_same (by simp) (by simp)
  event he ht h := event_carrierSound he h ht
  own := ownAnswers_keepsCarrier
  control rq _ h := controlAnswer_carrierSound h rq

/-- Settles O55: every command keeps the agreement, and taking it from the queue does not touch it. -/
theorem stepKeepsTheCarrier : Obligations.StepKeepsTheCarrier := fun _ _ h ht => keepsCarrier_stepClosed.step ht h

end Sys2Proof.Machine

/-! PROOFS. WRITE_LINES taken (O29): what it makes of the line it names, by the line's direction before and after, and of the
strobes (R176 to R179, R184, R186). -/

namespace Sys2Proof.Machine

section

variable {n : LineId} {w : LineSettings} {pins : PinIn} {s : State}

/-! ### The settings, before filter and edge follow (R186) -/

/-- A state with the settings of one line replaced, and its filter as it was (R186). -/
def State.withLineSettings (n : LineId) (w : LineSettings) (s : State) : State :=
  s.setLine n ((s.line n).withSettings w)

theorem withLineSettings_line (n : LineId) (w : LineSettings) (s : State) :
    (s.withLineSettings n w).line n = (s.line n).withSettings w := State.line_setLine_same ..

/-- Settings that a line already holds. -/
theorem withLineSettings_of_held (h : (s.line n).withSettings w = s.line n) : s.withLineSettings n w = s := by
  rw [State.withLineSettings, h, State.setLine_self]

theorem isOutput_of_settings {t : State} (h : (t.line n).withSettings w = t.line n) :
    isOutput t n = isOutput (s.withLineSettings n w) n :=
  isOutput_congr_of (by rw [← h, withLineSettings_line]; rfl) (by rw [← h, withLineSettings_line]; rfl)

/-! ### The three cases of a WRITE_LINES (R178, R179, R186) -/

/-- On a line that is an output at the end the filter may start afresh, and there is no edge (R178; log 22). -/
theorem applyLineSettings_output (ho : isOutput (s.withLineSettings n w) n = true) :
    ∃ filtered run, (run = (s.line n).run ∨ run = 0) ∧
      applyLineSettings n w pins s =
        noteHalt s (s.setLine n
          { (s.line n).withSettings w with filtered := filtered, run := run, filterDue := false }) := by
  unfold State.withLineSettings at ho
  by_cases hf : (s.line n).filter = w.filter
  · exact ⟨(s.line n).filtered, _, .inl rfl, by simp [applyLineSettings, ho, hf]; rfl⟩
  · exact ⟨_, _, .inr rfl, by simp [applyLineSettings, ho, hf]; rfl⟩

/-- A line that becomes an input starts its filter from the level found, and there is no edge (R178; log 47). -/
theorem applyLineSettings_becomesInput (hs : isOutput s n = true) (hi : isOutput (s.withLineSettings n w) n = false) :
    applyLineSettings n w pins s =
      noteHalt s (s.setLine n
        { (s.line n).withSettings w with
          filtered := pinFound pins n w.pull, raw := pinFound pins n w.pull, run := 0, filterDue := false }) := by
  unfold State.withLineSettings at hi
  simp [applyLineSettings, hs, hi]

/-- On a line that stays an input a change of invert is an edge of its level (R179, R184; logs 21 and 44). -/
theorem applyLineSettings_staysInput (hs : isOutput s n = false) (hi : isOutput (s.withLineSettings n w) n = false) :
    applyLineSettings n w pins s =
      noteHalt s
        (if (s.line n).invert = w.invert then s.withLineSettings n w
        else noteEdge n ((s.line n).filtered ^^ w.invert) (routedL6 s && routedL6 (s.withLineSettings n w))
          (s.withLineSettings n w)) := by
  have hlevel : logicalLevel (s.withLineSettings n w) n = ((s.line n).filtered ^^ w.invert) := by
    rw [logicalLevel_input hi, withLineSettings_line]
    rfl
  rw [← hlevel]
  unfold State.withLineSettings at hi ⊢
  by_cases h : (s.line n).invert = w.invert <;> simp [applyLineSettings, hs, hi, h]

/-! ### What becomes of the line (R176 to R179, R184) -/

theorem applyLineSettings_settings (n : LineId) (w : LineSettings) (pins : PinIn) (s : State) :
    ((applyLineSettings n w pins s).line n).withSettings w = (applyLineSettings n w pins s).line n := by
  cases hi : isOutput (s.withLineSettings n w) n with
  | true =>
    obtain ⟨filtered, run, -, h⟩ := applyLineSettings_output (pins := pins) hi
    simp [h, LineState.withSettings]
  | false =>
    cases hs : isOutput s n with
    | true => simp [applyLineSettings_becomesInput hs hi, LineState.withSettings]
    | false =>
      rw [applyLineSettings_staysInput hs hi]
      split <;> simp [noteEdge_line, withLineSettings_line, LineState.withSettings]

/-- The filtered level and the run of a line that stays an input stay; the edge flag is set by an edge that is chosen (R179). -/
theorem applyLineSettings_inputLine (hs : isOutput s n = false) (hi : isOutput (s.withLineSettings n w) n = false) :
    (applyLineSettings n w pins s).line n =
      { (s.line n).withSettings w with
        edgeFlag := (s.line n).edgeFlag ||
          ((s.line n).invert ^^ w.invert) && w.edge.chooses ((s.line n).filtered ^^ w.invert) } := by
  rw [applyLineSettings_staysInput hs hi]
  split
  · next h => simp [h, withLineSettings_line, LineState.withSettings]
  · next h =>
    have hmoved : ((s.line n).invert ^^ w.invert) = true := by simpa using h
    simp [noteEdge_line, withLineSettings_line, LineState.withSettings, hmoved]

theorem applyLineSettings_inputPulse (hs : isOutput s n = false) (hi : isOutput (s.withLineSettings n w) n = false) :
    (applyLineSettings n w pins s).lineUnit.l6Pulse =
      (s.lineUnit.l6Pulse || ((s.line n).invert ^^ w.invert) && n == .l6 && routedL6 s &&
        routedL6 (s.withLineSettings n w) && ((s.line n).filtered ^^ w.invert)) := by
  rw [applyLineSettings_staysInput hs hi]
  split
  · next h => simp [h, State.withLineSettings]
  · next h =>
    have hmoved : ((s.line n).invert ^^ w.invert) = true := by simpa using h
    simp [noteEdge_l6Pulse, State.withLineSettings, hmoved, Bool.and_assoc]

theorem applyLineSettings_routed (pins : PinIn) (w : LineSettings) (s : State) (n : LineId) :
    routedL6 (applyLineSettings n w pins s) = routedL6 (s.withLineSettings n w) := by
  refine routedL6_congr ?_
  by_cases h : LineId.l6 = n
  · subst h
    rw [← applyLineSettings_settings, withLineSettings_line]
    rfl
  · rw [applyLineSettings_other w pins s h, State.withLineSettings, State.line_setLine_ne _ _ _ h]

/-- Settings equal to those an input line holds change nothing. -/
theorem applyLineSettings_of_held (h : (s.line n).withSettings w = s.line n) (hs : isOutput s n = false) :
    applyLineSettings n w pins s = s := by
  have hsame := withLineSettings_of_held h
  have hinvert : (s.line n).invert = w.invert := by rw [← h]; rfl
  rw [applyLineSettings_staysInput hs (hsame.symm ▸ hs), if_pos hinvert, hsame, noteHalt_of_l1 rfl]

theorem lineSettings_carried {rq : Request} (h : rq.lineSettings n = some w) :
    w.enables = rq.arg 1 ∧ w.filter = min 15 (rq.num 7) := by
  unfold Request.lineSettings at h
  repeat' split at h
  all_goals cases h
  exact ⟨rfl, Nat.zero_max _⟩

/-- WRITE_LINES of the strobes (R186). -/
theorem writeStrobes_eq (rq : Request) (s : State) :
    writeStrobes rq s = carriedOut (decide (rq.num2 1 < 1 ∨ 500 < rq.num2 1 ∨ 60 < rq.num 3))
      (s.withLineUnit
        { s.lineUnit with strobeWidth := max 1 (min 500 (rq.num2 1)), strobeSlot := min 60 (rq.num 3) }) := by
  have hclamped : (clamp 1 500 (rq.num2 1) != rq.num2 1 || clamp 0 60 (rq.num 3) != rq.num 3) =
      decide (rq.num2 1 < 1 ∨ 500 < rq.num2 1 ∨ 60 < rq.num 3) := by
    rw [clamp_bne _ (by decide), clamp_bne _ (by decide)]
    simp [Bool.or_assoc]
  rw [writeStrobes]
  dsimp only
  rw [hclamped, clamp_eq, clamp_eq, Nat.zero_max]

theorem writeLinesAnswer_strobes {rq : Request} (h : rq.arg 0 = 8) :
    writeLinesAnswer pins rq s = writeStrobes rq s := by
  rw [writeLinesAnswer, h]
  rfl

end

/-- Settles O29: a line by its direction before and after, and the strobes. -/
theorem writeLinesReplacesSettings : Obligations.WriteLinesReplacesSettings := by
  intro src pins s rq htakes hlen hperm s1
  refine ⟨fun n w hn hw => ?line, fun h => ?strobes⟩
  case strobes =>
    exact congrArg _ ((take_checked htakes (writeLinesAnswer pins) hlen hperm).trans
      (congrArg _ ((writeLinesAnswer_strobes h).trans (writeStrobes_eq rq s1))))
  case line =>
    intro t
    obtain ⟨henables, hfilter⟩ := lineSettings_carried hw
    have hset : (t.line n).withSettings w = t.line n := applyLineSettings_settings n w pins s1
    have hdir : isOutput t n = isOutput (s1.withLineSettings n w) n := isOutput_of_settings hset
    refine ⟨exec_writeLines htakes hlen hperm hn hw, henables, hfilter, by rw [← hset]; rfl, by rw [← hset]; rfl,
      fun m hm => applyLineSettings_other w pins s1 hm, fun hs hi => ?becomesInput, fun hs hi => ?staysInput,
      fun ho => ?output, fun hheld hs => applyLineSettings_of_held hheld hs⟩
    case becomesInput =>
      have ht : t = noteHalt s1 _ := applyLineSettings_becomesInput hs (hdir ▸ hi)
      rw [ht]
      simp [LineState.withSettings, s1]
    case staysInput =>
      have hline : t.line n = _ := applyLineSettings_inputLine hs (hdir ▸ hi)
      have hpulse : t.lineUnit.l6Pulse = _ := applyLineSettings_inputPulse hs (hdir ▸ hi)
      rw [hpulse, hline, applyLineSettings_routed, EdgeSelect.chooses_eq]
      exact ⟨rfl, rfl, rfl, rfl⟩
    case output =>
      obtain ⟨filtered, run, -, ht⟩ := applyLineSettings_output (pins := pins) (hdir ▸ ho)
      rw [show t = _ from ht]
      simp [LineState.withSettings, s1]

end Sys2Proof.Machine

/-! PROOFS. The ranges of the station lines and of the counters (O57), block by block, and what the operations of the part, the
receivers, the boundary and the pulses make of them (R175, R176, R181, R188). -/

namespace Sys2Proof.Machine

/-! ### The ranges, block by block (R175, R176, R188) -/

/-- The ranges of one line (R175, R176). -/
structure LineState.InRange (n : LineId) (ln : LineState) : Prop where
  filter : ln.filter ≤ 15
  run : ln.run ≤ 15
  enables : ln.enables.toNat < 2 ^ (functionsOf n).length

/-- The station line unit's share of the ranges (R175, R181). -/
structure LineUnit.InRange (u : LineUnit) : Prop where
  line : ∀ n, (u.lines.get n).InRange n
  width : 1 ≤ u.strobeWidth ∧ u.strobeWidth ≤ 500
  slot : u.strobeSlot ≤ 60
  strobe : ∀ k, StrobeSound (u.strobes.get k)

/-- The counters of the status unit are at most at their end (R188). -/
structure StatusUnit.InRange (c : StatusUnit) : Prop where
  brokenMinutes : c.brokenMinutes ≤ 65535
  timeSteps : c.timeSteps ≤ 65535
  minutesCoded : c.minutesCoded ≤ 65535
  strayPulses : ∀ l, c.strayPulses.get l ≤ 65535
  badSeconds : ∀ l, c.badSeconds.get l ≤ 65535
  framesDiscarded : ∀ l, c.framesDiscarded.get l ≤ 65535

theorem linesSound_iff (s : State) : LinesSound s ↔ s.lineUnit.InRange := by
  constructor
  · rintro ⟨hline, hwidth, hwidth', hslot, hminute, hslotTimer, hsecond⟩
    refine ⟨fun n => ?_, ⟨hwidth, hwidth'⟩, hslot, fun k => ?_⟩
    · obtain ⟨hfilter, hrun, henables⟩ := hline n (mem_allLines n)
      exact ⟨hfilter, hrun, henables⟩
    · cases k <;> assumption
  · rintro ⟨hline, ⟨hwidth, hwidth'⟩, hslot, hstrobe⟩
    refine ⟨fun n _ => ?_, hwidth, hwidth', hslot, hstrobe .minute, hstrobe .slot, hstrobe .second⟩
    obtain ⟨hfilter, hrun, henables⟩ := hline n
    exact ⟨hfilter, hrun, henables⟩

theorem Link.forall_iff {p : Link → Prop} : (∀ l, p l) ↔ p .a ∧ p .b :=
  ⟨fun h => ⟨h .a, h .b⟩, fun h l => by cases l; exacts [h.1, h.2]⟩

theorem countersSound_iff (s : State) : CountersSound s ↔ s.status.InRange := by
  constructor
  · rintro ⟨hbroken, hsteps, hcoded, hstrayA, hstrayB, hbadA, hbadB, hframesA, hframesB⟩
    exact ⟨hbroken, hsteps, hcoded, Link.forall_iff.2 ⟨hstrayA, hstrayB⟩, Link.forall_iff.2 ⟨hbadA, hbadB⟩,
      Link.forall_iff.2 ⟨hframesA, hframesB⟩⟩
  · rintro ⟨hbroken, hsteps, hcoded, hstray, hbad, hframes⟩
    exact ⟨hbroken, hsteps, hcoded, hstray .a, hstray .b, hbad .a, hbad .b, hframes .a, hframes .b⟩

/-- Counting up one of two counters keeps both within their end (R188). -/
theorem countUp_set_le {p : PerLink Nat} (h : ∀ l, p.get l ≤ 65535) (x : Link) (n : Nat) :
    ∀ l, (p.set x (countUp n)).get l ≤ 65535 := by
  intro l
  rw [PerLink.get_set]
  split
  · exact countUp_le n
  · exact h l

theorem clearedStatus_inRange : clearedStatus.InRange :=
  have zero : ∀ l, ({ a := 0, b := 0 } : PerLink Nat).get l ≤ 65535 := Link.forall_iff.2 ⟨Nat.zero_le _, Nat.zero_le _⟩
  ⟨Nat.zero_le _, Nat.zero_le _, Nat.zero_le _, zero, zero, zero⟩

/-- A power-on reset gives every line its table's values, whatever its pin (R175). -/
theorem powerOnLines_inRange (pins : PinIn) : (powerOnLines pins).InRange where
  line n := by
    rw [powerOnLines, PerLine.get_build]
    exact ⟨Nat.zero_le _, Nat.zero_le _, Nat.two_pow_pos _⟩
  width := show 1 ≤ 100 ∧ 100 ≤ 500 by decide
  slot := Nat.zero_le _
  strobe k := by cases k <;> exact nofun

/-- A soft restart keeps the configuration and stops the strobes (R175). -/
theorem LineUnit.InRange.afterRestart {u : LineUnit} (h : u.InRange) : u.afterRestart.InRange where
  line n := by
    obtain ⟨hfilter, hrun, henables⟩ := h.line n
    rw [LineUnit.afterRestart, PerLine.get_build]
    exact ⟨hfilter, hrun, henables⟩
  width := h.width
  slot := h.slot
  strobe k := by cases k <;> exact nofun

/-- A filter counts on only up to the filter time (R178). -/
theorem LineState.InRange.sample {n : LineId} {ln : LineState} (h : ln.InRange n) (raw : Bool) :
    (ln.sample raw).InRange n := by
  obtain ⟨hfilter, hrun, henables⟩ := h
  unfold LineState.sample
  split
  · exact ⟨hfilter, Nat.zero_le _, henables⟩
  · split
    · exact ⟨hfilter, hrun, henables⟩
    · next hle => exact ⟨hfilter, (Nat.not_lt.1 hle).trans hfilter, henables⟩

/-- A HALT assertion counts the word that it breaks, and sets its event flag (R161, R173, R190). -/
theorem haltAssertion_status (s : State) :
    (haltAssertion s).status =
      { (if s.carrier.code = .running then markBroken s else s).status with haltSeen := true } := by
  unfold haltAssertion
  dsimp only
  generalize (if s.carrier.code = .running then markBroken s else s) = u
  split <;> rfl

/-- The lines of the second state are in their ranges if those of the first are, and so are the counters. -/
structure State.KeepsRanges (s t : State) : Prop where
  lines : s.lineUnit.InRange → t.lineUnit.InRange
  counters : s.status.InRange → t.status.InRange

namespace State.KeepsRanges

variable {s0 s t : State}

theorem refl (s : State) : s.KeepsRanges s := ⟨id, id⟩

theorem trans (h1 : s0.KeepsRanges s) (h2 : s.KeepsRanges t) : s0.KeepsRanges t :=
  ⟨h2.lines ∘ h1.lines, h2.counters ∘ h1.counters⟩

/-- What changes neither line unit nor status unit. -/
theorem congr (h : s0.KeepsRanges s) (hu : t.lineUnit = s.lineUnit) (hc : t.status = s.status) : s0.KeepsRanges t :=
  h.trans ⟨fun hs => hu ▸ hs, fun hs => hc ▸ hs⟩

/-- What changes the counters and leaves the line unit. -/
theorem count (h : s0.KeepsRanges s) (hu : t.lineUnit = s.lineUnit) (hc : s.status.InRange → t.status.InRange) :
    s0.KeepsRanges t := h.trans ⟨fun hs => hu ▸ hs, hc⟩

/-- What changes the line unit and leaves the counters. -/
theorem move (h : s0.KeepsRanges s) (hu : s.lineUnit.InRange → t.lineUnit.InRange) (hc : t.status = s.status) :
    s0.KeepsRanges t := h.trans ⟨hu, fun hs => hc ▸ hs⟩

theorem setLine (h : s0.KeepsRanges s) {n : LineId} {ln : LineState} (hl : (s.line n).InRange n → ln.InRange n) :
    s0.KeepsRanges (s.setLine n ln) := by
  refine h.move (fun hs => ⟨fun m => ?_, hs.width, hs.slot, hs.strobe⟩) rfl
  rw [State.setLine_lineUnit, PerLine.get_set]
  split
  · next hm => exact hm ▸ hl (hs.line n)
  · exact hs.line m

/-! ### What is counted and noted (R13, R93, R161, R188) -/

theorem recordError (h : s0.KeepsRanges s) (l : Link) (k : ErrKind) : s0.KeepsRanges (recordError l k s) := by
  refine h.count (by simp) fun hs => ?_
  rw [recordError_status]
  refine { hs with framesDiscarded := ?_ }
  dsimp only
  split
  · exact countUp_set_le hs.framesDiscarded l _
  · exact hs.framesDiscarded

theorem markBroken (h : s0.KeepsRanges s) : s0.KeepsRanges (markBroken s) := by
  refine h.count (by simp) fun hs => ?_
  rw [markBroken_status]
  split
  · exact { hs with brokenMinutes := countUp_le _ }
  · exact hs

theorem noteLimited (h : s0.KeepsRanges s) (before : State) : s0.KeepsRanges (noteLimited before s) := by
  refine h.count (by simp) fun hs => ?_
  rw [noteLimited_status]
  exact { hs with }

theorem noteFrame (h : s0.KeepsRanges s) (x : Link) (frame : Option EpochFrame) :
    s0.KeepsRanges (noteFrame x frame s) := by
  refine h.count (by simp) fun hs => ?_
  rw [noteFrame_status]
  exact { hs with }

theorem noteStray (h : s0.KeepsRanges s) (x : Link) (e : Int) : s0.KeepsRanges (noteStray x e s) := by
  unfold Machine.noteStray
  split
  · exact h
  · exact h.count rfl fun hs => { hs with strayPulses := countUp_set_le hs.strayPulses x _ }

theorem badSecond (h : s0.KeepsRanges s) (x : Link) : s0.KeepsRanges (badSecond x s) := by
  refine h.count (by simp) fun hs => ?_
  rw [badSecond_status]
  exact { hs with badSeconds := countUp_set_le hs.badSeconds x _ }

/-! ### What a link receives (R4 to R12) -/

theorem setRx (h : s0.KeepsRanges s) (l : Link) (rx : RxState) : s0.KeepsRanges (setRx l rx s) := h.congr rfl rfl

theorem setLink (h : s0.KeepsRanges s) {l : Link} {ls : LinkState} : s0.KeepsRanges (s.setLink l ls) := h.congr rfl rfl

theorem muteWith (h : s0.KeepsRanges s) (l : Link) (k : ErrKind) : s0.KeepsRanges (muteWith l k s) :=
  (h.recordError l k).setRx l .muted

theorem filterFrame (h : s0.KeepsRanges s) (l : Link) (hd : Header) (check : Byte) :
    s0.KeepsRanges (filterFrame l hd check s) := by
  unfold Machine.filterFrame
  split
  · exact h.muteWith _ _
  · split
    · exact h.muteWith _ _
    · exact h.setRx _ _

theorem filterAddress (h : s0.KeepsRanges s) (l : Link) (hd : Header) (corrected : Bool) (check : Byte) :
    s0.KeepsRanges (filterAddress l hd corrected check s) := by
  unfold Machine.filterAddress
  split
  · exact h.setRx _ _
  · cases corrected
    · exact h.filterFrame _ _ _
    · exact (h.recordError _ _).filterFrame _ _ _

theorem checkHeader (h : s0.KeepsRanges s) (l : Link) (hd : Header) (check : Byte) :
    s0.KeepsRanges (checkHeader l hd check s) := by
  unfold Machine.checkHeader
  split
  · exact h.filterAddress _ _ _ _
  · exact h.filterAddress _ _ _ _
  · exact h.muteWith _ _

theorem storePayload (h : s0.KeepsRanges s) (l : Link) (hd : Header) (check : Byte) (got : List Byte) :
    s0.KeepsRanges (storePayload l hd check got s) := by
  unfold Machine.storePayload
  split
  · exact h.muteWith _ _
  · exact h.setRx _ _

theorem receiveByte (h : s0.KeepsRanges s) (l : Link) (b : Byte) : s0.KeepsRanges (receiveByte l b s) := by
  unfold Machine.receiveByte
  split
  · split
    · exact h.setRx _ _
    · exact h
  · split
    · exact h.checkHeader _ _ _
    · exact h.setRx _ _
  · split
    · exact h.muteWith _ _
    · exact h.storePayload _ _ _ _
  · exact h

theorem receiveFault (h : s0.KeepsRanges s) (l : Link) (k : ErrKind) : s0.KeepsRanges (receiveFault l k s) := by
  unfold Machine.receiveFault
  split
  · exact h
  · exact h.muteWith _ _
  · exact h.muteWith _ _
  · exact h

theorem takeFrame (h : s0.KeepsRanges s) (l : Link) (hd : Header) (payload : List Byte) :
    s0.KeepsRanges (takeFrame l hd payload s) := by
  unfold Machine.takeFrame takeEpoch takeRequestFrame
  split
  · dsimp only
    split
    · exact (h.recordError _ _).setLink
    · exact h.setLink
  · split
    · split
      · exact h.recordError _ _
      · split
        · exact h.recordError _ _
        · exact h.setLink
    · exact h

theorem receiveIdle (h : s0.KeepsRanges s) (l : Link) : s0.KeepsRanges (receiveIdle l s) := by
  unfold Machine.receiveIdle
  split
  · exact h
  · exact (h.recordError _ _).setRx _ _
  · split
    · exact (h.setRx _ _).takeFrame _ _ _
    · exact (h.recordError _ _).setRx _ _
  · exact h.setRx _ _

/-! ### Words, carrier and strobes at a boundary (R126 to R130, R161, R181, R189) -/

theorem endCurrent (h : s0.KeepsRanges s) (completed : Bool) : s0.KeepsRanges (endCurrent completed s) := by
  unfold Machine.endCurrent
  split
  · exact h
  · split
    · refine h.count rfl fun hs => ?_
      rw [State.withStatus_status]
      split
      · exact { hs with minutesCoded := countUp_le _ }
      · exact hs
    · dsimp only
      split
      · exact h.markBroken.congr rfl rfl
      · exact h.congr rfl rfl

theorem dropWords (h : s0.KeepsRanges s) : s0.KeepsRanges (dropWords s) :=
  (endCurrent (s := discardPending s) (h.congr rfl rfl) false).congr rfl rfl

theorem handOver (h : s0.KeepsRanges s) : s0.KeepsRanges (handOver s) := (h.endCurrent _).congr rfl rfl

theorem assemblerBoundary (h : s0.KeepsRanges s) (label : Option Label) :
    s0.KeepsRanges (assemblerBoundary label s) := by
  cases label with
  | none => exact (endCurrent (s := discardPending s) (h.congr rfl rfl) _).congr rfl rfl
  | some lab =>
    have kept : s0.KeepsRanges (if lab.mark = .none then s else Machine.dropWords s) := by
      split
      · exact h
      · exact h.dropWords
    have words : s0.KeepsRanges (assemblerWords lab s) := by
      unfold assemblerWords
      dsimp only
      split
      · exact handOver (kept.congr rfl rfl)
      · exact kept.congr rfl rfl
    rw [assemblerBoundary_some]
    split
    · exact words.congr rfl rfl
    · exact words

theorem slotStart (h : s0.KeepsRanges s) (label : Option Label) : s0.KeepsRanges (slotStart label s) := by
  unfold Machine.slotStart
  dsimp only
  split
  · exact h.markBroken.congr rfl rfl
  · exact h.congr rfl rfl

/-- A strobe begins with the width set (R181). -/
theorem startStrobes (h : s0.KeepsRanges s) (label : Option Label) : s0.KeepsRanges (startStrobes label s) := by
  refine h.move (fun hs => ?_) (by simp)
  have begun : StrobeSound (some s.lineUnit.strobeWidth) := by
    intro n hn
    exact Option.some.inj hn ▸ hs.width.2
  have loaded (now : Bool) {t : Option Nat} (ht : StrobeSound t) :
      StrobeSound (if now then some s.lineUnit.strobeWidth else t) := by
    cases now
    · exact ht
    · exact begun
  rw [startStrobes_strobes]
  refine ⟨hs.line, hs.width, hs.slot, fun k => ?_⟩
  cases k
  · exact loaded _ (hs.strobe .minute)
  · exact loaded _ (hs.strobe .slot)
  · exact begun

theorem secondBoundary (h : s0.KeepsRanges s) (cause : BoundaryCause) : s0.KeepsRanges (secondBoundary cause s) := by
  have timed : s0.KeepsRanges (timeBoundary cause (completeAssembly s)) := h.congr (by simp) (by simp)
  have words := (timed.noteLimited s).assemblerBoundary (beginningLabel cause s)
  have carrier : s0.KeepsRanges (boundaryCarrier cause s) :=
    words.congr (by simp [boundaryCarrier, labelled]) (by simp [boundaryCarrier, labelled])
  rw [secondBoundary_eq]
  exact ((carrier.slotStart _).startStrobes _).congr rfl rfl

/-! ### Pulses and missing seconds (R42 to R55) -/

theorem setPhase (h : s0.KeepsRanges s) (x : Link) : s0.KeepsRanges (setPhase x s) := h.congr rfl rfl

theorem steer (h : s0.KeepsRanges s) (x : Link) (e : Int) : s0.KeepsRanges (steer x e s) := by
  have phased := h.setPhase x
  unfold Machine.steer
  split
  · exact phased.secondBoundary .advance
  · split
    · exact h
    · exact phased.congr rfl rfl

theorem activate (h : s0.KeepsRanges s) (x : Link) : s0.KeepsRanges (activate x s) := h.congr (by simp) (by simp)

theorem adopt (h : s0.KeepsRanges s) (x : Link) (f : EpochFrame) (e : Int) : s0.KeepsRanges (adopt x f e s) := by
  have active := h.activate x
  have stepped : s0.KeepsRanges ((Machine.activate x s).withStatus
      { (Machine.activate x s).status with
        timeSteps := countUp (Machine.activate x s).status.timeSteps, timeStep := true }) :=
    active.count rfl fun hs => { hs with timeSteps := countUp_le _ }
  unfold Machine.adopt
  dsimp only
  split
  · exact (active.setPhase x).secondBoundary _
  · split
    · exact active.steer x e
    · exact (stepped.setPhase x).secondBoundary _

theorem revertiveTest (h : s0.KeepsRanges s) (x : Link) (f : EpochFrame) (e : Int) :
    s0.KeepsRanges (revertiveTest x f e s) := by
  unfold Machine.revertiveTest
  split
  · split
    · exact (h.activate x).steer x e
    · exact h
  · exact h.count rfl fun hs => { hs with }

theorem setMonitor (h : s0.KeepsRanges s) (x : Link) (mon : Monitor) : s0.KeepsRanges (s.setMonitor x mon) :=
  h.congr rfl rfl

theorem goodSecond (h : s0.KeepsRanges s) (x : Link) (f : EpochFrame) (e : Int) :
    s0.KeepsRanges (goodSecond x f e s) := by
  unfold Machine.goodSecond
  dsimp only
  split
  · exact (h.setMonitor x _).steer x e
  · split
    · split
      · exact (h.setMonitor x _).adopt x f e
      · exact (h.setMonitor x _).revertiveTest x f e
    · exact h.setMonitor x _

theorem judgeSecond (h : s0.KeepsRanges s) (x : Link) : s0.KeepsRanges (judgeSecond x s) := by
  have consumed : s0.KeepsRanges (consumePulse x s) := h.congr rfl rfl
  have noted := (consumed.noteFrame x (s.link x).latch).noteStray x (pulseOffset s.timebase.m)
  unfold Machine.judgeSecond
  dsimp only
  split
  · exact noted.goodSecond x _ _
  · exact noted.setMonitor x _
  · exact noted.badSecond x

theorem takePulse (h : s0.KeepsRanges s) (x : Link) : s0.KeepsRanges (takePulse x s) := by
  unfold Machine.takePulse
  split
  · exact h
  · split
    · exact h.setMonitor x _
    · exact h.judgeSecond x

theorem takeWaiting (h : s0.KeepsRanges s) (x : Link) : s0.KeepsRanges (takeWaiting x s) := by
  unfold Machine.takeWaiting
  split
  · exact (h.setMonitor x _).takePulse x
  · exact h

theorem takeMissing (h : s0.KeepsRanges s) (x : Link) : s0.KeepsRanges (takeMissing x s) := by
  unfold Machine.takeMissing
  split
  · exact (h.setMonitor x _).badSecond x
  · exact h

theorem takeL6Pulse (h : s0.KeepsRanges s) : s0.KeepsRanges (takeL6Pulse s) := by
  unfold Machine.takeL6Pulse
  split
  · refine takePulse ?_ .b
    exact h.move (fun hs => { hs with }) rfl
  · exact h

theorem takeEdge (h : s0.KeepsRanges s) (i : PulseInput) : s0.KeepsRanges (takeEdge i s) := by
  cases i with
  | ppsA => exact h.takePulse .a
  | ppsB =>
    simp only [Machine.takeEdge]
    split
    · exact h
    · exact h.takePulse .b
  | lineL6 => exact h.takeL6Pulse

/-! ### The lines (R173, R178 to R181, R186) -/

theorem haltAssertion (h : s0.KeepsRanges s) : s0.KeepsRanges (haltAssertion s) := by
  refine h.count (by simp) fun hs => ?_
  have broken : (if s.carrier.code = .running then Machine.markBroken s else s).status.InRange := by
    split
    · exact (refl s).markBroken.counters hs
    · exact hs
  rw [haltAssertion_status]
  exact { broken with }

theorem noteHalt (h : s0.KeepsRanges s) (before : State) : s0.KeepsRanges (noteHalt before s) := by
  rw [noteHalt_eq]
  split
  · exact h.haltAssertion
  · exact h

theorem noteEdge (h : s0.KeepsRanges s) (n : LineId) (rising routed : Bool) :
    s0.KeepsRanges (noteEdge n rising routed s) := by
  have flagged : s0.KeepsRanges
      (if (s.line n).edge.chooses rising then s.setLine n { s.line n with edgeFlag := true } else s) := by
    split
    · exact h.setLine fun hl => { hl with }
    · exact h
  unfold Machine.noteEdge
  dsimp only
  split
  · exact flagged.move (fun hs => { hs with }) rfl
  · exact flagged

theorem takeFilterChange (h : s0.KeepsRanges s) (n : LineId) : s0.KeepsRanges (takeFilterChange n s) := by
  unfold Machine.takeFilterChange
  split
  · refine noteHalt (noteEdge ?_ n _ _) s
    exact h.setLine fun hl => { hl with run := Nat.zero_le _ }
  · exact h

/-- Settings in their ranges leave the line in its ranges, whichever way it turns (R178, R186). -/
theorem applyLineSettings (h : s0.KeepsRanges s) {n : LineId} {w : LineSettings} (hf : w.filter ≤ 15)
    (he : w.enables.toNat < 2 ^ (functionsOf n).length) (pins : PinIn) :
    s0.KeepsRanges (applyLineSettings n w pins s) := by
  have written : s0.KeepsRanges (s.withLineSettings n w) := h.setLine fun hl => ⟨hf, hl.run, he⟩
  cases hi : isOutput (s.withLineSettings n w) n with
  | true =>
    obtain ⟨filtered, run, hrun, ht⟩ := applyLineSettings_output (pins := pins) hi
    rw [ht]
    refine (h.setLine fun hl => ⟨hf, ?_, he⟩).noteHalt s
    rcases hrun with rfl | rfl
    · exact hl.run
    · exact Nat.zero_le _
  | false =>
    cases hs : isOutput s n with
    | true =>
      rw [applyLineSettings_becomesInput hs hi]
      exact (h.setLine fun _ => ⟨hf, Nat.zero_le _, he⟩).noteHalt s
    | false =>
      rw [applyLineSettings_staysInput hs hi]
      refine noteHalt ?_ s
      split
      · exact written
      · exact written.noteEdge n _ _

theorem endStrobe (h : s0.KeepsRanges s) (k : Strobe) : s0.KeepsRanges (endStrobe k s) := by
  unfold Machine.endStrobe
  split
  · refine h.move (fun hs => { hs with strobe := fun m => ?_ }) rfl
    by_cases hm : m = k
    · rw [State.withLineUnit_lineUnit, hm, Strobes.get_set_same]
      exact nofun
    · rw [State.withLineUnit_lineUnit, Strobes.get_set_ne _ _ hm]
      exact hs.strobe m
  · exact h

/-- A running strobe has one step less to go (R181). -/
theorem lineStep (h : s0.KeepsRanges s) (pins : PinIn) : s0.KeepsRanges (lineStep pins s) := by
  refine h.move (fun hs => ⟨fun n => ?line, hs.width, hs.slot, fun k => ?strobe⟩) rfl
  case line =>
    show ((Machine.lineStep pins s).line n).InRange n
    rw [lineStep_line]
    split
    · exact hs.line n
    · exact LineState.InRange.sample (hs.line n) _
  case strobe =>
    have ticked {t : Option Nat} (ht : StrobeSound t) : StrobeSound (strobeTick t) := by
      intro n hn
      obtain ⟨m, hm, rfl⟩ := Option.map_eq_some_iff.1 hn
      exact (Nat.sub_le m 1).trans (ht m hm)
    cases k
    · exact ticked (hs.strobe .minute)
    · exact ticked (hs.strobe .slot)
    · exact ticked (hs.strobe .second)

/-! ### The keying step (R40 to R45) -/

theorem takeFilterChanges (h : s0.KeepsRanges s) : s0.KeepsRanges (takeFilterChanges s) := by
  unfold Machine.takeFilterChanges
  induction allLines generalizing s with
  | nil => exact h
  | cons n rest ih => exact ih (h.takeFilterChange n)

theorem formWrap (h : s0.KeepsRanges s) : s0.KeepsRanges (formWrap s) := by
  have routed : s0.KeepsRanges (if routedL6 s then Machine.takeFilterChange .l6 s else s) := by
    split
    · exact h.takeFilterChange .l6
    · exact h
  have wrapped {u : State} (hu : s0.KeepsRanges u) : s0.KeepsRanges (takeWrap u) := by
    unfold takeWrap
    split
    · exact hu.secondBoundary .advance
    · exact hu
  exact (wrapped routed.takeL6Pulse).congr rfl rfl

theorem closeStep (h : s0.KeepsRanges s) : s0.KeepsRanges (closeStep s) := by
  have wrapped {u : State} (hu : s0.KeepsRanges u) :
      s0.KeepsRanges (if u.timebase.wrapDue then Machine.formWrap u else Machine.takeL6Pulse u) := by
    split
    · exact hu.formWrap
    · exact hu.takeL6Pulse
  have missed := ((wrapped h.takeFilterChanges).takeMissing .a).takeMissing .b
  exact (((missed.endStrobe .minute).endStrobe .slot).endStrobe .second).congr (by simp [Machine.closeStep])
    (by simp [Machine.closeStep])

theorem openStep (h : s0.KeepsRanges s) (pins : PinIn) : s0.KeepsRanges (openStep pins s) := by
  have ticked : s0.KeepsRanges (s.withTimebase s.timebase.tick) := h.congr rfl rfl
  exact (ticked.lineStep pins).congr (openStep_lineUnit pins s) (by simp)

theorem keyingStep (h : s0.KeepsRanges s) (pins : PinIn) :
    s0.KeepsRanges (Machine.takeWaiting .b (Machine.takeWaiting .a (Machine.openStep pins (Machine.closeStep s)))) :=
  ((h.closeStep.openStep pins).takeWaiting .a).takeWaiting .b

theorem execPulse (h : s0.KeepsRanges s) (i : PulseEdges) (ht : execPulse i s = .next t) : s0.KeepsRanges t := by
  have wrapped (w : Bool) {u : State} (hu : s0.KeepsRanges u) : s0.KeepsRanges (if w then Machine.formWrap u else u) := by
    cases w
    · exact hu
    · exact hu.formWrap
  obtain ⟨input, also⟩ := i
  obtain rfl := Host.Outcome.next.inj ht
  cases also with
  | some k => exact wrapped _ ((h.takeEdge input).takeEdge k)
  | none => exact wrapped _ (h.takeEdge input)

end State.KeepsRanges

end Sys2Proof.Machine

/-! PROOFS. Every step keeps station lines and counters in their ranges (O57): the events, the requests, and the step over all
commands (R26 to R28, R186, R192). -/

namespace Sys2Proof.Machine

section

variable {s t : State}

theorem State.KeepsRanges.of_same (hu : t.lineUnit = s.lineUnit) (hc : t.status = s.status) : s.KeepsRanges t :=
  (State.KeepsRanges.refl s).congr hu hc

/-! ### The events (R23, R38) -/

theorem powerOn_keepsRanges (pins : PinIn) (s : State) :
    s.KeepsRanges ((State.powerOn pins).withPending s.pending |>.withFreeDraws s.freeDraws) :=
  ⟨fun _ => powerOnLines_inRange pins, fun _ => clearedStatus_inRange⟩

theorem softRestartEffect_keepsRanges (src : Link) (wire : WireIn) (s : State) :
    s.KeepsRanges (softRestartEffect src wire s) :=
  ⟨fun h => h.afterRestart, fun _ => clearedStatus_inRange⟩

theorem event_keepsRanges {c : Instr} (hc : sourceOf c = none) (ht : exec c s = .next t) : s.KeepsRanges t := by
  have h := State.KeepsRanges.refl s
  have ended (l : Link) : s.KeepsRanges (endCharacter l s) := .of_same rfl rfl
  cases c <;> simp only [sourceOf, reduceCtorEq] at hc
  case pulse i => exact h.execPulse i ht
  all_goals obtain rfl := Host.Outcome.next.inj ht
  case powerOnReset pins => exact powerOn_keepsRanges pins s
  case byteReceived l ch =>
    split
    · split
      · exact ended l
      · split
        · exact (ended l).receiveByte l _
        · exact h
        · exact h
    · exact h
  case characterFault l ch =>
    split
    · split
      · exact ended l
      · split
        · exact h
        · exact (ended l).receiveFault l _
        · exact (ended l).receiveFault l _
    · exact h
  case idle l =>
    split
    · exact h.receiveIdle l
    · exact h
  case replyComplete l =>
    split
    · split
      · exact softRestartEffect_keepsRanges _ _ s
      · exact .of_same (by simp) (by simp)
    all_goals exact h
  case leadExpiry | tailExpiry | characterInProgressCompleted | assemblyCompletion | risingComplete | fallingComplete =>
    repeat' split
    all_goals exact .of_same (by simp) (by simp)
  case keyingStep pins => exact h.keyingStep pins
  case flywheelWrap =>
    split
    · exact h.formWrap
    · exact h
  case missingSecond x => exact h.takeMissing x
  case lineFilterChange n => exact h.takeFilterChange n
  case strobeEnd k => exact h.endStrobe k

/-! ### The requests on lines, status and timebase (R59, R186, R192) -/

/-- The settings that WRITE_LINES carries are in their ranges (R186). -/
theorem lineSettings_inRange {rq : Request} {n : LineId} {w : LineSettings} (h : rq.lineSettings n = some w) :
    w.filter ≤ 15 ∧ w.enables.toNat < 2 ^ (functionsOf n).length := by
  obtain ⟨henables, hfilter⟩ := lineSettings_carried h
  refine ⟨hfilter ▸ Nat.min_le_left _ _, henables ▸ Nat.not_le.1 fun hover => ?_⟩
  cases (if_pos (t := none) hover).symm.trans h

theorem writeStrobes_keepsRanges (rq : Request) (s : State) : s.KeepsRanges (writeStrobes rq s).state :=
  (State.KeepsRanges.refl s).move
    (fun h => ⟨h.line, clamp_bounds _ (by decide), (clamp_bounds _ (by decide)).2, h.strobe⟩) rfl

theorem writeLinesAnswer_keepsRanges (pins : PinIn) (rq : Request) (s : State) :
    s.KeepsRanges (writeLinesAnswer pins rq s).state := by
  unfold writeLinesAnswer
  split
  · split
    · exact .refl s
    · next hw =>
      obtain ⟨hfilter, henables⟩ := lineSettings_inRange hw
      exact (State.KeepsRanges.refl s).applyLineSettings hfilter henables pins
  · split
    · exact writeStrobes_keepsRanges rq s
    · exact .refl s

/-- The clear option clears every counter and leaves the ranges of the lines (R192). -/
theorem clearStatus_keepsRanges (s : State) : s.KeepsRanges (clearStatus s) := by
  refine ⟨fun h => ⟨fun n => ?_, h.width, h.slot, h.strobe⟩, fun _ => clearedStatus_inRange⟩
  show ((clearStatus s).line n).InRange n
  rw [clearStatus_line]
  exact { h.line n with }

theorem readStatusAnswer_keepsRanges (rq : Request) (s : State) : s.KeepsRanges (readStatusAnswer rq s).state := by
  have captured : s.KeepsRanges (captureStatus rq s).state := by
    rw [captureStatus, readOn, readAnswer_state]
    split
    · exact .of_same rfl rfl
    · exact .refl s
  unfold readStatusAnswer
  split
  · exact .refl s
  · split
    · exact .refl s
    · dsimp only
      split
      · exact captured.trans (clearStatus_keepsRanges _)
      · exact captured

/-- New settings of the timebase may bring holdover to its limit, which is an event and no count (R59, R190). -/
theorem setTimebaseAnswer_keepsRanges (rq : Request) (s : State) : s.KeepsRanges (setTimebaseAnswer rq s).state := by
  unfold setTimebaseAnswer
  split
  · exact .refl s
  · refine .noteLimited ?_ s
    exact .of_same rfl rfl

/-- A link disabled may do so too (R21, R190). -/
theorem disableLinkAnswer_keepsRanges (wire : WireIn) (rq : Request) (s : State) :
    s.KeepsRanges (disableLinkAnswer wire rq s).state := by
  have disabled (x : Link) : s.KeepsRanges (disableEffect x wire s) := by
    refine .noteLimited ?_ s
    exact .of_same rfl rfl
  unfold disableLinkAnswer
  split
  · exact .refl s
  · split
    · exact .refl s
    · split
      · exact .refl s
      · rw [carriedOut_state]
        split
        · exact disabled _
        · exact .refl s

/-! ### All requests (R26 to R28, R34) -/

theorem blockAnswers_keepsRanges {pins : PinIn} {own : Request → State → Answer} (h : own ∈ blockAnswers pins)
    (rq : Request) (s : State) : s.KeepsRanges (own rq s).state := by
  revert own
  simp only [blockAnswers, List.forall_mem_cons, List.not_mem_nil, IsEmpty.forall_iff, implies_true, and_true,
    writeLinesAnswer_keepsRanges]
  and_intros
  all_goals
    simp only [setPermissionsAnswer, softRestartAnswer, setBalanceAnswer, setCivilAnswer, setWindowsAnswer, addLeapAnswer,
      deleteLeapAnswer, addTransitionAnswer, deleteTransitionAnswer, writeMapOwn, copyMapAnswer, commitMapAnswer,
      cancelCommitAnswer, writeTestOwn, pushOverrideAnswer, popOverrideAnswer, removeOverrideAnswer, writeProfileAnswer,
      setRampAnswer, setAssemblySlotAnswer]
    repeat' split
    all_goals exact .of_same rfl rfl

theorem linkAnswers_keepsRanges {wire : WireIn} {own : Request → State → Answer} (h : own ∈ linkAnswers wire)
    (rq : Request) (s : State) : s.KeepsRanges (own rq s).state := by
  revert own
  simp only [linkAnswers, List.forall_mem_cons, List.not_mem_nil, IsEmpty.forall_iff, implies_true, and_true,
    disableLinkAnswer_keepsRanges, setTimebaseAnswer_keepsRanges, readStatusAnswer_keepsRanges]
  and_intros
  all_goals
    simp only [setLinkAnswer, setReturnLimitAnswer, enableLinkAnswer, enableEffect]
    repeat' split
    all_goals exact .of_same rfl rfl

theorem ownAnswers_keepsRanges {pins : PinIn} {wire : WireIn} {own : Request → State → Answer}
    (h : own ∈ ownAnswers pins wire) (rq : Request) (s : State) : s.KeepsRanges (own rq s).state := by
  simp only [ownAnswers, List.mem_append] at h
  rcases h with hlink | hblock | hread
  · exact linkAnswers_keepsRanges hlink rq s
  · exact blockAnswers_keepsRanges hblock rq s
  · exact (readAnswers_state hread rq s).symm ▸ .refl s

/-- CONTROL changes carrier control and the assembler alone (R34). -/
theorem controlAnswer_keepsRanges (rq : Request) (s : State) : s.KeepsRanges (controlAnswer rq s).state := by
  by_cases hlen : rq.args.length = 6
  · cases h1 : (if keptPart rq s 0 .carrier then carrierPart (rq.arg 1) s else .ok s) with
    | error r => exact controlAnswer_carrier_refused hlen h1 ▸ .refl s
    | ok s1 =>
      cases h2 : (if keptPart rq s 1 .code then codePart (rq.arg 2) s1 else .ok s1) with
      | error r => exact controlAnswer_code_refused hlen h1 h2 ▸ .refl s
      | ok s2 =>
        rw [controlAnswer_applied hlen h1 h2]
        obtain ⟨c1, rfl⟩ := withCarrier_of_ite carrierPart_withCarrier h1
        obtain ⟨c2, rfl⟩ := withCarrier_of_ite codePart_withCarrier h2
        exact .of_same rfl rfl
  · rw [controlAnswer, if_pos hlen]
    exact .refl s

end

/-- What a step needs to keep lines and counters in their ranges (R26 to R28; log 2). -/
theorem keepsRanges_stepClosed : StepClosed State.KeepsRanges where
  refl := .refl
  trans := .trans
  withPending _ _ := .of_same rfl rfl
  popTaken _ _ := .of_same rfl rfl
  finishTake _ _ := .of_same (by simp) (by simp)
  event := event_keepsRanges
  own := ownAnswers_keepsRanges
  control := controlAnswer_keepsRanges

/-- Settles O57: every command keeps both ranges, and taking it from the queue does not touch them. -/
theorem stepKeepsLinesAndCounters : Obligations.StepKeepsLinesAndCounters := by
  intro s t ht
  obtain ⟨hlines, hcounters⟩ := keepsRanges_stepClosed.step ht
  exact ⟨fun h => (linesSound_iff t).2 (hlines ((linesSound_iff s).1 h)),
    fun h => (countersSound_iff t).2 (hcounters ((countersSound_iff s).1 h))⟩

end Sys2Proof.Machine

/-! PROOFS. The queue of commands (log 2), operation by operation: what is computed from the state is the same with another
queue, and an update or a shared operation commutes with putting one in. Every lemma is oriented so that `withPending` moves
outwards, through the branches of a conditional too (`ite_withPending`). -/

namespace Sys2Proof.Machine

section

variable (s t : State) (q : List Instr)

/-! ### What is computed from the state -/

@[simp] theorem conditions_withPending :
    timeValid (s.withPending q) = timeValid s ∧ inHoldover (s.withPending q) = inHoldover s ∧
    warned (s.withPending q) = warned s ∧ limited (s.withPending q) = limited s ∧
    profileInForce (s.withPending q) = profileInForce s ∧ fullInForce (s.withPending q) = fullInForce s ∧
    lastSlotBegun (s.withPending q) = lastSlotBegun s ∧ pulseWaits (s.withPending q) = pulseWaits s ∧
    (∀ lab, takeView lab (s.withPending q) = takeView lab s) ∧ (∀ m, leapLate (s.withPending q) m = leapLate s m) ∧
    (∀ m, transitionLate (s.withPending q) m = transitionLate s m) ∧
    (∀ f e, agrees (s.withPending q) f e = agrees s f e) := by
  and_intros
  all_goals intros; rfl

@[simp] theorem levels_withPending :
    (∀ n, holder (s.withPending q) n = holder s n) ∧ (∀ n, isOutput (s.withPending q) n = isOutput s n) ∧
    (∀ n, logicalLevel (s.withPending q) n = logicalLevel s n) ∧ (∀ n, rawLevel (s.withPending q) n = rawLevel s n) ∧
    txHoldAsserted (s.withPending q) = txHoldAsserted s ∧ haltAsserted (s.withPending q) = haltAsserted s ∧
    routedL6 (s.withPending q) = routedL6 s ∧ (∀ l, replyDriveEnabled l (s.withPending q) = replyDriveEnabled l s) ∧
    (∀ pins, sampledLine (s.withPending q) pins = sampledLine s pins) ∧
    (∀ i, pulseSource i (s.withPending q) = pulseSource i s) := by
  and_intros
  all_goals intros; rfl

@[simp] theorem takes_withPending :
    (∀ src, nextTake (s.withPending q) src = nextTake s src) ∧
    (∀ name src, takenRequest name src (s.withPending q) = takenRequest name src s) ∧
    (∀ src c, permitted (s.withPending q) src c = permitted s src c) ∧
    (∀ rq part c, keptPart rq (s.withPending q) part c = keptPart rq s part c) ∧
    permissionData (s.withPending q) = permissionData s ∧ linesImage (s.withPending q) = linesImage s ∧
    (∀ free, statusRecord (s.withPending q) free = statusRecord s free) := by
  and_intros
  all_goals intros; rfl

/-! ### Updates -/

@[simp] theorem updates_withPending :
    (∀ x, (s.withPending q).withLinks x = (s.withLinks x).withPending q) ∧
    (∀ x, (s.withPending q).withExecutor x = (s.withExecutor x).withPending q) ∧
    (∀ x, (s.withPending q).withTimebase x = (s.withTimebase x).withPending q) ∧
    (∀ x, (s.withPending q).withTimeScale x = (s.withTimeScale x).withPending q) ∧
    (∀ x, (s.withPending q).withRules x = (s.withRules x).withPending q) ∧
    (∀ x, (s.withPending q).withAssembler x = (s.withAssembler x).withPending q) ∧
    (∀ x, (s.withPending q).withStack x = (s.withStack x).withPending q) ∧
    (∀ x, (s.withPending q).withKeying x = (s.withKeying x).withPending q) ∧
    (∀ x, (s.withPending q).withCarrier x = (s.withCarrier x).withPending q) ∧
    (∀ x, (s.withPending q).withLineUnit x = (s.withLineUnit x).withPending q) ∧
    (∀ x, (s.withPending q).withStatus x = (s.withStatus x).withPending q) ∧
    (∀ x, (s.withPending q).withFreeDraws x = (s.withFreeDraws x).withPending q) ∧
    (∀ l x, (s.withPending q).setLink l x = (s.setLink l x).withPending q) ∧
    (∀ l x, (s.withPending q).setMonitor l x = (s.setMonitor l x).withPending q) ∧
    (∀ n x, (s.withPending q).setLine n x = (s.setLine n x).withPending q) := by
  and_intros
  all_goals intros; rfl

/-- Two branches that end in the same queue. -/
@[simp] theorem ite_withPending (p : Prop) [Decidable p] :
    (if p then s.withPending q else t.withPending q) = (if p then s else t).withPending q :=
  (apply_ite (State.withPending · q) p s t).symm

/-! ### Links and their transmitters (01) -/

@[simp] theorem linkOps_withPending (l : Link) :
    (∀ k, recordError l k (s.withPending q) = (recordError l k s).withPending q) ∧
    (∀ rx, setRx l rx (s.withPending q) = (setRx l rx s).withPending q) ∧
    (∀ tx, setTx l tx (s.withPending q) = (setTx l tx s).withPending q) ∧
    (∀ r, sendPoint l r (s.withPending q) = (sendPoint l r s).withPending q) ∧
    endCharacter l (s.withPending q) = (endCharacter l s).withPending q ∧
    popTaken l (s.withPending q) = (popTaken l s).withPending q ∧
    (∀ k, muteWith l k (s.withPending q) = (muteWith l k s).withPending q) := by
  and_intros
  all_goals intros; rfl

@[simp] theorem offerReply_withPending (l : Link) (r : Reply) :
    offerReply l r (s.withPending q) = (offerReply l r s).withPending q := by
  simp [offerReply]

@[simp] theorem endReply_withPending (l : Link) : endReply l (s.withPending q) = (endReply l s).withPending q := by
  simp [endReply]

@[simp] theorem softRestartEffect_withPending (l : Link) (wire : WireIn) :
    softRestartEffect l wire (s.withPending q) = (softRestartEffect l wire s).withPending q := rfl

@[simp] theorem checkHeader_withPending (l : Link) (h : Header) (check : Byte) :
    checkHeader l h check (s.withPending q) = (checkHeader l h check s).withPending q := by
  have filtered (h : Header) (corrected : Bool) :
      filterAddress l h corrected check (s.withPending q) = (filterAddress l h corrected check s).withPending q := by
    simp [filterAddress, filterFrame]
  unfold checkHeader
  cases judgeHeader h check <;> simp [filtered]

@[simp] theorem receiveByte_withPending (l : Link) (b : Byte) :
    receiveByte l b (s.withPending q) = (receiveByte l b s).withPending q := by
  simp only [receiveByte, State.withPending_link]
  split
  · simp
  · split <;> simp
  · simp [storePayload]
  · rfl

@[simp] theorem receiveFault_withPending (l : Link) (k : ErrKind) :
    receiveFault l k (s.withPending q) = (receiveFault l k s).withPending q := by
  simp only [receiveFault, State.withPending_link]
  split <;> simp

@[simp] theorem takeFrame_withPending (l : Link) (h : Header) (payload : List Byte) :
    takeFrame l h payload (s.withPending q) = (takeFrame l h payload s).withPending q := by
  simp [takeFrame, takeEpoch, takeRequestFrame]

@[simp] theorem receiveIdle_withPending (l : Link) : receiveIdle l (s.withPending q) = (receiveIdle l s).withPending q := by
  simp only [receiveIdle, State.withPending_link]
  split <;> simp

/-! ### Code assembly (05, 07) -/

@[simp] theorem noteLimited_withPending :
    noteLimited (s.withPending q) (t.withPending q) = (noteLimited s t).withPending q := by
  simp [noteLimited]

@[simp] theorem checkHint_withPending (f : EpochFrame) : checkHint f (s.withPending q) = (checkHint f s).withPending q := by
  simp [checkHint]

@[simp] theorem markBroken_withPending : markBroken (s.withPending q) = (markBroken s).withPending q := by
  simp only [markBroken, State.withPending_assembler]
  split <;> simp

@[simp] theorem wordOps_withPending :
    discardPending (s.withPending q) = (discardPending s).withPending q ∧
    copySlot (s.withPending q) = (copySlot s).withPending q ∧
    (∀ n, beginSlot n (s.withPending q) = (beginSlot n s).withPending q) ∧
    (∀ lab, startAssembly lab (s.withPending q) = (startAssembly lab s).withPending q) := by
  and_intros
  all_goals intros; rfl

@[simp] theorem completeAssembly_withPending : completeAssembly (s.withPending q) = (completeAssembly s).withPending q := by
  simp only [completeAssembly, State.withPending_assembler]
  split <;> simp

@[simp] theorem endCurrent_withPending (completed : Bool) :
    endCurrent completed (s.withPending q) = (endCurrent completed s).withPending q := by
  simp only [endCurrent, State.withPending_assembler]
  split
  · rfl
  · next cw _ =>
    cases completed
    · cases hk : s.carrier.code.keys <;> simp [hk]
    · rfl

@[simp] theorem assemblerBoundary_withPending (label : Option Label) :
    assemblerBoundary label (s.withPending q) = (assemblerBoundary label s).withPending q := by
  cases label <;> simp [assemblerBoundary, dropWords, handOver]

/-! ### Keying and the carrier (09, 10) -/

@[simp] theorem keyingOps_withPending :
    (∀ a b, formSample a b (s.withPending q) = (formSample a b s).withPending q) ∧
    realign (s.withPending q) = (realign s).withPending q ∧
    (∀ label, startStrobes label (s.withPending q) = (startStrobes label s).withPending q) ∧
    (∀ pins, lineStep pins (s.withPending q) = (lineStep pins s).withPending q) ∧
    carrierStep (s.withPending q) = (carrierStep s).withPending q ∧
    beginRamp (s.withPending q) = (beginRamp s).withPending q ∧
    fallAtBoundary (s.withPending q) = (fallAtBoundary s).withPending q ∧
    (∀ k, fallFrom k (s.withPending q) = (fallFrom k s).withPending q) := by
  and_intros
  all_goals intros; rfl

@[simp] theorem endStrobe_withPending (k : Strobe) : endStrobe k (s.withPending q) = (endStrobe k s).withPending q := by
  simp [endStrobe]

@[simp] theorem slotStart_withPending (label : Option Label) :
    slotStart label (s.withPending q) = (slotStart label s).withPending q := by
  simp [slotStart]

@[simp] theorem completeRising_withPending : completeRising (s.withPending q) = (completeRising s).withPending q := by
  simp [completeRising]

@[simp] theorem completeFalling_withPending : completeFalling (s.withPending q) = (completeFalling s).withPending q := by
  simp [completeFalling]

@[simp] theorem carrierBoundary_withPending (label : Option Label) (handed : Bool) :
    carrierBoundary label handed (s.withPending q) = (carrierBoundary label handed s).withPending q := by
  simp only [carrierBoundary, State.withPending_carrier]
  split
  · simp
  · by_cases ho : s.carrier.offAfter = true <;> simp [ho]
  · rfl
  · rfl

@[simp] theorem haltAssertion_withPending : haltAssertion (s.withPending q) = (haltAssertion s).withPending q := by
  by_cases hr : s.carrier.code = .running <;> cases hs : s.carrier.state <;> simp [haltAssertion, hr, hs]

@[simp] theorem noteHalt_withPending : noteHalt (s.withPending q) (t.withPending q) = (noteHalt s t).withPending q := by
  simp [noteHalt]

@[simp] theorem carrierOff_withPending : carrierOff (s.withPending q) = (carrierOff s).withPending q := by
  simp only [carrierOff, State.withPending_carrier]
  split <;> simp

@[simp] theorem codeOff_withPending : codeOff (s.withPending q) = (codeOff s).withPending q := by
  simp only [codeOff, State.withPending_carrier]
  split <;> simp

/-! ### The second boundary and the pulses (03) -/

@[simp] theorem secondBoundary_withPending (cause : BoundaryCause) :
    secondBoundary cause (s.withPending q) = (secondBoundary cause s).withPending q := by
  simp [secondBoundary, timeBoundary]

@[simp] theorem takeWrap_withPending : takeWrap (s.withPending q) = (takeWrap s).withPending q := by
  simp [takeWrap]

@[simp] theorem badSecond_withPending (x : Link) : badSecond x (s.withPending q) = (badSecond x s).withPending q := by
  cases hm : (s.monitor x).state <;> simp [badSecond, hm]

@[simp] theorem monitorOps_withPending (x : Link) :
    setPhase x (s.withPending q) = (setPhase x s).withPending q ∧
    activate x (s.withPending q) = (activate x s).withPending q ∧
    consumePulse x (s.withPending q) = (consumePulse x s).withPending q ∧
    (∀ f e, startingSecond x f e (s.withPending q) = (startingSecond x f e s).withPending q) := by
  and_intros
  all_goals intros; rfl

@[simp] theorem steer_withPending (x : Link) (e : Int) : steer x e (s.withPending q) = (steer x e s).withPending q := by
  simp [steer]

@[simp] theorem goodSecond_withPending (x : Link) (f : EpochFrame) (e : Int) :
    goodSecond x f e (s.withPending q) = (goodSecond x f e s).withPending q := by
  have adopted (u : State) : adopt x f e (u.withPending q) = (adopt x f e u).withPending q := by simp [adopt]
  have tested (u : State) : revertiveTest x f e (u.withPending q) = (revertiveTest x f e u).withPending q := by
    simp [revertiveTest]
  by_cases ha : (s.monitor x).state = .active
  · simp [goodSecond, ha]
  · by_cases hn : s.timebase.active = none <;> simp [goodSecond, ha, hn, adopted, tested]

@[simp] theorem noteFrame_withPending (x : Link) (frame : Option EpochFrame) :
    noteFrame x frame (s.withPending q) = (noteFrame x frame s).withPending q := by
  cases frame <;> simp [noteFrame]

@[simp] theorem noteStray_withPending (x : Link) (e : Int) :
    noteStray x e (s.withPending q) = (noteStray x e s).withPending q := by
  simp [noteStray]

@[simp] theorem judgeSecond_withPending (x : Link) : judgeSecond x (s.withPending q) = (judgeSecond x s).withPending q := by
  simp only [judgeSecond, State.withPending_link, State.withPending_monitor, State.withPending_timebase,
    State.withPending_timeScale]
  split <;> simp

@[simp] theorem takePulse_withPending (x : Link) : takePulse x (s.withPending q) = (takePulse x s).withPending q := by
  simp [takePulse]

@[simp] theorem takeWaiting_withPending (x : Link) : takeWaiting x (s.withPending q) = (takeWaiting x s).withPending q := by
  simp [takeWaiting]

@[simp] theorem takeMissing_withPending (x : Link) : takeMissing x (s.withPending q) = (takeMissing x s).withPending q := by
  simp [takeMissing]

/-! ### Lines and the keying step (11, 03) -/

@[simp] theorem noteEdge_withPending (n : LineId) (rising routed : Bool) :
    noteEdge n rising routed (s.withPending q) = (noteEdge n rising routed s).withPending q := by
  simp [noteEdge]

@[simp] theorem takeFilterChange_withPending (n : LineId) :
    takeFilterChange n (s.withPending q) = (takeFilterChange n s).withPending q := by
  simp [takeFilterChange]

@[simp] theorem applyLineSettings_withPending (n : LineId) (w : LineSettings) (pins : PinIn) :
    applyLineSettings n w pins (s.withPending q) = (applyLineSettings n w pins s).withPending q := by
  simp [applyLineSettings]

@[simp] theorem takeL6Pulse_withPending : takeL6Pulse (s.withPending q) = (takeL6Pulse s).withPending q := by
  simp [takeL6Pulse]

@[simp] theorem takeFilterChanges_withPending :
    takeFilterChanges (s.withPending q) = (takeFilterChanges s).withPending q := by
  unfold takeFilterChanges
  induction allLines generalizing s with
  | nil => rfl
  | cons n rest ih => simp [ih]

@[simp] theorem sealStep_withPending : sealStep (s.withPending q) = (sealStep s).withPending q := rfl

@[simp] theorem formWrap_withPending : formWrap (s.withPending q) = (formWrap s).withPending q := by
  simp [formWrap]

@[simp] theorem takeEdge_withPending (i : PulseInput) : takeEdge i (s.withPending q) = (takeEdge i s).withPending q := by
  cases i <;> simp [takeEdge]

@[simp] theorem closeStep_withPending : closeStep (s.withPending q) = (closeStep s).withPending q := by
  simp [closeStep]

@[simp] theorem openStep_withPending (pins : PinIn) : openStep pins (s.withPending q) = (openStep pins s).withPending q := by
  simp [openStep, keyingAdvance]

end

end Sys2Proof.Machine

/-! PROOFS. Every command ignores the queue (O2): the requests by their rows, the events one by one; and what a step does with
the queue (O1). -/

namespace Sys2Proof.Machine

/-! ### Requests (R26 to R35) -/

/-- The answer with another queue in its state. -/
def Answer.withPending (an : Answer) (q : List Instr) : Answer := { an with state := an.state.withPending q }

/-- A handler that does not read the queue and leaves it as it is. -/
def HandlerIgnoresQueue (handler : Request → State → Answer) : Prop :=
  ∀ (rq : Request) (s : State) (q : List Instr), handler rq (s.withPending q) = (handler rq s).withPending q

section

variable (s : State) (q : List Instr)

@[simp] theorem Answer.withPending_state (an : Answer) : (an.withPending q).state = an.state.withPending q := rfl

@[simp] theorem Answer.withPending_outcome (an : Answer) : (an.withPending q).outcome = an.outcome := rfl

@[simp] theorem Answer.withPending_data (an : Answer) : (an.withPending q).data = an.data := rfl

@[simp] theorem answers_withPending :
    (∀ r, refuse r (s.withPending q) = (refuse r s).withPending q) ∧
    (∀ clamped, carriedOut clamped (s.withPending q) = (carriedOut clamped s).withPending q) := by
  and_intros
  all_goals intros; rfl

@[simp] theorem Answer.mk_withPending (outcome : ReplyOutcome) (data : List Byte) :
    Answer.mk outcome data (s.withPending q) = (Answer.mk outcome data s).withPending q := rfl

@[simp] theorem ite_answer_withPending (p : Prop) [Decidable p] (an an' : Answer) :
    (if p then an.withPending q else an'.withPending q) = (if p then an else an').withPending q :=
  (apply_ite (Answer.withPending · q) p an an').symm

theorem readAnswer_withPending (image : List Byte) (o r : Nat) :
    readAnswer image o r (s.withPending q) = (readAnswer image o r s).withPending q := by
  unfold readAnswer
  split_ifs <;> rfl

@[simp] theorem readOn_withPending (rq : Request) (image : List Byte) :
    readOn rq image (s.withPending q) = (readOn rq image s).withPending q :=
  readAnswer_withPending ..

@[simp] theorem finishTake_withPending (rq : Request) (an : Answer) :
    finishTake rq (an.withPending q) = (finishTake rq an).withPending q := by
  cases hw : rq.wantsReply
  · simp [finishTake_of_no_reply _ hw]
  · rw [finishTake_of_reply _ hw, finishTake_of_reply _ hw]
    exact offerReply_withPending ..

end

/-! ### The own answers of the requests -/

theorem setPermissionsAnswer_ignoresQueue : HandlerIgnoresQueue setPermissionsAnswer := by
  intro rq s q
  by_cases hpriv : rq.src = s.executor.privileged <;> simp [setPermissionsAnswer, hpriv]

theorem setCivilAnswer_ignoresQueue : HandlerIgnoresQueue setCivilAnswer := by
  intro rq s q
  cases hsummer : boolOf (rq.arg 1) <;> simp [setCivilAnswer, hsummer]

theorem addLeapAnswer_ignoresQueue : HandlerIgnoresQueue addLeapAnswer := by
  intro rq s q
  cases hentry : rq.leapEntry <;> simp [addLeapAnswer, hentry]

theorem deleteLeapAnswer_ignoresQueue : HandlerIgnoresQueue deleteLeapAnswer := by
  intro rq s q
  cases hfound : s.rules.leaps.find? (·.day == rq.num2 0) <;> simp [deleteLeapAnswer, hfound]

theorem addTransitionAnswer_ignoresQueue : HandlerIgnoresQueue addTransitionAnswer := by
  intro rq s q
  cases hentry : rq.transition with
  | none => simp [addTransitionAnswer, hentry]
  | some e => by_cases hfull : 16 ≤ s.rules.transitions.length <;> simp [addTransitionAnswer, hentry, hfull]

theorem writeMapOwn_ignoresQueue : HandlerIgnoresQueue writeMapOwn := by
  intro rq s q
  cases hentries : entriesOf (rq.args.drop 2) <;> simp [writeMapOwn, hentries]

theorem commitMapAnswer_ignoresQueue : HandlerIgnoresQueue commitMapAnswer := by
  intro rq s q
  cases hcheck : firstFailingCheck s.assembler.shadowBank <;> simp [commitMapAnswer, hcheck]

theorem writeTestOwn_ignoresQueue : HandlerIgnoresQueue writeTestOwn := by
  intro rq s q
  cases hrecord : symbolsOf rq.args.tail with
  | none => simp [writeTestOwn, hrecord]
  | some record =>
    by_cases hguard : hasTestEntry s.stack = true
    · cases hfault : testRecordFault record <;> simp [writeTestOwn, hrecord, hguard, hfault]
    · simp [writeTestOwn, hrecord, hguard]

theorem pushOverrideAnswer_ignoresQueue : HandlerIgnoresQueue pushOverrideAnswer := by
  intro rq s q
  unfold pushOverrideAnswer
  split
  · next value present _ _ =>
    cases hfault : (if value = .content true then testRecordFault s.assembler.test else none) <;>
      simp [hfault]
  · simp

theorem popOverrideAnswer_ignoresQueue : HandlerIgnoresQueue popOverrideAnswer := by
  intro rq s q
  cases hstack : s.stack <;> simp [popOverrideAnswer, hstack]

theorem writeProfileAnswer_ignoresQueue : HandlerIgnoresQueue writeProfileAnswer := by
  intro rq s q
  cases hfault : profileFault (clampProfile rq.profile) <;> simp [writeProfileAnswer, hfault]

theorem writeLinesAnswer_ignoresQueue (pins : PinIn) : HandlerIgnoresQueue (writeLinesAnswer pins) := by
  intro rq s q
  unfold writeLinesAnswer
  split
  · split <;> simp
  · simp [writeStrobes]

/-- The requests that concern neither links nor timebase: those without a match on what they name need only their updates. -/
theorem blockAnswers_ignoreQueue {pins : PinIn} {own : Request → State → Answer} (h : own ∈ blockAnswers pins) :
    HandlerIgnoresQueue own := by
  revert own
  simp only [blockAnswers, List.forall_mem_cons, List.not_mem_nil, IsEmpty.forall_iff, implies_true, and_true,
    setPermissionsAnswer_ignoresQueue, setCivilAnswer_ignoresQueue, addLeapAnswer_ignoresQueue,
    deleteLeapAnswer_ignoresQueue, addTransitionAnswer_ignoresQueue, writeMapOwn_ignoresQueue,
    commitMapAnswer_ignoresQueue, writeTestOwn_ignoresQueue, pushOverrideAnswer_ignoresQueue,
    popOverrideAnswer_ignoresQueue, writeProfileAnswer_ignoresQueue, writeLinesAnswer_ignoresQueue, true_and]
  and_intros
  all_goals
    intro rq s q
    simp [softRestartAnswer, setBalanceAnswer, setWindowsAnswer, deleteTransitionAnswer, copyMapAnswer, cancelCommitAnswer,
      removeOverrideAnswer, setRampAnswer, setAssemblySlotAnswer]

theorem readAnswers_ignoreQueue {own : Request → State → Answer} (h : own ∈ readAnswers) : HandlerIgnoresQueue own := by
  revert own
  simp only [readAnswers, List.forall_mem_cons, List.not_mem_nil, IsEmpty.forall_iff, implies_true, and_true]
  refine ⟨?map, ?profile, ?lists, ?stack, ?word, ?lines⟩ <;> intro rq s q
  case map => cases hbank : bankSelected (rq.arg 2) s.assembler <;> simp [readMapAnswer, hbank]
  case profile => simp [readProfileAnswer]
  case lists => simp [readListsAnswer]
  case stack => simp [readStackAnswer]
  case word => simp [readWordAnswer]
  case lines => simp [readLinesAnswer]

theorem setLinkAnswer_ignoresQueue (wire : WireIn) : HandlerIgnoresQueue (setLinkAnswer wire) := by
  intro rq s q
  unfold setLinkAnswer
  split <;> simp

@[simp] theorem disableEffect_withPending (l : Link) (wire : WireIn) (s : State) (q : List Instr) :
    disableEffect l wire (s.withPending q) = (disableEffect l wire s).withPending q := by
  by_cases ha : s.timebase.active = some l <;> by_cases hr : s.executor.restartPending = some l <;>
    simp [disableEffect, ha, hr]

theorem disableLinkAnswer_ignoresQueue (wire : WireIn) : HandlerIgnoresQueue (disableLinkAnswer wire) := by
  intro rq s q
  cases htarget : linkOf (rq.arg 0) <;> simp [disableLinkAnswer, htarget]

theorem enableLinkAnswer_ignoresQueue (wire : WireIn) : HandlerIgnoresQueue (enableLinkAnswer wire) := by
  intro rq s q
  cases htarget : linkOf (rq.arg 0) <;> simp [enableLinkAnswer, enableEffect, htarget]

theorem setTimebaseAnswer_ignoresQueue : HandlerIgnoresQueue setTimebaseAnswer := by
  intro rq s q
  cases hgiven : rq.timebaseSettings <;> simp [setTimebaseAnswer, hgiven]

theorem readStatusAnswer_ignoresQueue : HandlerIgnoresQueue readStatusAnswer := by
  have captured (rq : Request) (s : State) (q : List Instr) :
      captureStatus rq (s.withPending q) = (captureStatus rq s).withPending q := by simp [captureStatus]
  have cleared (s : State) (q : List Instr) : clearStatus (s.withPending q) = (clearStatus s).withPending q := rfl
  intro rq s q
  cases hclear : boolOf (rq.arg 2) <;> simp [readStatusAnswer, hclear, captured, cleared]

theorem linkAnswers_ignoreQueue {wire : WireIn} {own : Request → State → Answer} (h : own ∈ linkAnswers wire) :
    HandlerIgnoresQueue own := by
  revert own
  simp only [linkAnswers, List.forall_mem_cons, List.not_mem_nil, IsEmpty.forall_iff, implies_true, and_true,
    setLinkAnswer_ignoresQueue, disableLinkAnswer_ignoresQueue, enableLinkAnswer_ignoresQueue,
    setTimebaseAnswer_ignoresQueue, readStatusAnswer_ignoresQueue, true_and]
  intro rq s q
  simp [setReturnLimitAnswer]

theorem ownAnswers_ignoreQueue {pins : PinIn} {wire : WireIn} {own : Request → State → Answer}
    (h : own ∈ ownAnswers pins wire) : HandlerIgnoresQueue own := by
  simp only [ownAnswers, List.mem_append] at h
  rcases h with hlink | hblock | hread
  · exact linkAnswers_ignoreQueue hlink
  · exact blockAnswers_ignoreQueue hblock
  · exact readAnswers_ignoreQueue hread

/-- The first checks of a row do not read the queue either (R27, R32). -/
theorem row_ignoresQueue {src : Link} {pins : PinIn} {wire : WireIn} {row : RequestRow}
    (h : row ∈ requestRows src pins wire) : HandlerIgnoresQueue row.handler := by
  intro rq s q
  cases row_firstChecks h with
  | checked hown _ _ hhandler => simp [hhandler, checked, ownAnswers_ignoreQueue hown rq s q]
  | lengthChecked hown _ _ hhandler => simp [hhandler, lengthChecked, ownAnswers_ignoreQueue hown rq s q]
  | writeMap _ hhandler => simp [hhandler, writeMapAnswer, writeMapOwn_ignoresQueue rq s q]
  | writeTest _ hhandler => simp [hhandler, writeTestAnswer, writeTestOwn_ignoresQueue rq s q]

/-! ### CONTROL (R34) -/

/-- The carrier part from a state with another queue: refused for the same reason, or carried out with that queue. -/
theorem carrierPart_withPending (b : Byte) (s : State) (q : List Instr) :
    carrierPart b (s.withPending q) = (carrierPart b s).map (State.withPending · q) := by
  have on : carrierOn (s.withPending q) = (carrierOn s).map (State.withPending · q) := by
    simp only [carrierOn, State.withPending_carrier, levels_withPending]
    split_ifs
    · rfl
    · cases s.carrier.state <;> rfl
  unfold carrierPart
  split
  · exact on
  · exact congrArg _ (carrierOff_withPending s q)
  · rfl

theorem codePart_withPending (b : Byte) (s : State) (q : List Instr) :
    codePart b (s.withPending q) = (codePart b s).map (State.withPending · q) := by
  have on : codeOn (s.withPending q) = (codeOn s).map (State.withPending · q) := by
    simp only [codeOn, State.withPending_carrier]
    split
    · rfl
    · rfl
    · split <;> rfl
    · split
      · rfl
      · rfl
      · rfl
      · by_cases ho : s.carrier.offAfter = true <;> simp [ho, Except.map]
  unfold codePart
  split
  · exact on
  · exact congrArg _ (codeOff_withPending s q)
  · rfl

/-- A part of CONTROL that is kept or left out, from a state with another queue. -/
theorem part_withPending {part : State → Except Reason State} {s : State} {q : List Instr} (p : Prop) [Decidable p]
    (h : part (s.withPending q) = (part s).map (State.withPending · q)) :
    (if p then part (s.withPending q) else .ok (s.withPending q)) =
      (if p then part s else .ok s).map (State.withPending · q) := by
  split
  · exact h
  · rfl

theorem controlAnswer_ignoresQueue : HandlerIgnoresQueue controlAnswer := by
  intro rq s q
  by_cases hlen : rq.args.length = 6
  · have h1' := part_withPending (keptPart rq s 0 .carrier = true) (carrierPart_withPending (rq.arg 1) s q)
    cases h1 : (if keptPart rq s 0 .carrier then carrierPart (rq.arg 1) s else .ok s) with
    | error r =>
      rw [controlAnswer_carrier_refused hlen h1]
      exact controlAnswer_carrier_refused hlen (h1'.trans (congrArg _ h1))
    | ok s1 =>
      have h2' := part_withPending (keptPart rq s 1 .code = true) (codePart_withPending (rq.arg 2) s1 q)
      cases h2 : (if keptPart rq s 1 .code then codePart (rq.arg 2) s1 else .ok s1) with
      | error r =>
        rw [controlAnswer_code_refused hlen h1 h2]
        exact controlAnswer_code_refused hlen (h1'.trans (congrArg _ h1)) (h2'.trans (congrArg _ h2))
      | ok s2 =>
        rw [controlAnswer_applied hlen h1 h2]
        exact controlAnswer_applied (s := s.withPending q) (s1 := s1.withPending q) (s2 := s2.withPending q) hlen
          (h1'.trans (congrArg _ h1)) (h2'.trans (congrArg _ h2))
  · simp [controlAnswer, hlen]

/-! ### Commands -/

/-- A meaning that answers a next state and neither reads nor changes the queue. -/
def IgnoresQueue (meaning : State → Out) : Prop :=
  ∀ s : State, ∃ t, meaning s = .next t ∧ ∀ q : List Instr, meaning (s.withPending q) = .next (t.withPending q)

theorem IgnoresQueue.of_next {f : State → State} (h : ∀ s q, f (s.withPending q) = (f s).withPending q) :
    IgnoresQueue fun s => .next (f s) :=
  fun s => ⟨f s, rfl, fun q => congrArg _ (h s q)⟩

/-- What does not depend on the queue leaves it: put in the queue that is there already. -/
theorem IgnoresQueue.keeps {meaning : State → Out} (h : IgnoresQueue meaning) {s t : State} (ht : meaning s = .next t) :
    t.pending = s.pending := by
  obtain ⟨u, hu, hq⟩ := h s
  have hself : Host.Outcome.next t = (.next (u.withPending s.pending) : Out) := ht.symm.trans (hq s.pending)
  rw [Host.Outcome.next.inj hself, State.withPending_pending]

theorem takeNamed_withPending {name : Byte} {handler : Request → State → Answer} (h : HandlerIgnoresQueue handler)
    (src : Link) (s : State) (q : List Instr) :
    takeNamed name handler src (s.withPending q) = (takeNamed name handler src s).withPending q := by
  simp only [takeNamed, takes_withPending]
  split
  · next rq _ => simp [h rq]
  · rfl

theorem takeControl_withPending (row : Request → Bool) (src : Link) (s : State) (q : List Instr) :
    takeControl row src (s.withPending q) = (takeControl row src s).withPending q := by
  simp only [takeControl, takes_withPending]
  split
  · next rq _ => simp [controlAnswer_ignoresQueue rq]
  · rfl

theorem takeUnknown_withPending (src : Link) (s : State) (q : List Instr) :
    takeUnknown src (s.withPending q) = (takeUnknown src s).withPending q := by
  simp only [takeUnknown, takes_withPending]
  split
  · rfl
  · split <;> simp

theorem request_ignoresQueue {c : Instr} {src : Link} (h : sourceOf c = some src) : IgnoresQueue (exec c) := by
  rcases sourceOf_cases h with ⟨pins, wire, row, hrow, rfl⟩ | hcontrol | rfl
  · rw [funext (exec_row hrow)]
    exact .of_next (takeNamed_withPending (row_ignoresQueue hrow) src)
  · obtain ⟨row, hrow⟩ := exec_control hcontrol
    rw [funext hrow]
    exact .of_next (takeControl_withPending row src)
  · exact .of_next (takeUnknown_withPending src)

theorem event_ignoresQueue {c : Instr} (h : sourceOf c = none) : IgnoresQueue (exec c) := by
  cases c <;> simp only [sourceOf, reduceCtorEq] at h
  all_goals refine .of_next fun s q => ?_
  case powerOnReset => rfl
  case byteReceived l c | characterFault l c => cases hc : judgeChar (s.link l).charParity c <;> simp [hc]
  case leadExpiry l | characterInProgressCompleted l => cases htx : (s.link l).tx <;> simp [htx]
  case replyComplete l => cases htx : (s.link l.link).tx <;> simp [htx]
  case pulse i => obtain ⟨input, _ | also⟩ := i <;> simp
  case idle | tailExpiry | keyingStep | risingComplete | fallingComplete | flywheelWrap | assemblyCompletion | missingSecond
      | lineFilterChange | strobeEnd => simp

/-- Settles O2: a command is a request of a link, taken by its row, or an event. -/
theorem commandsIgnoreTheQueue : Obligations.CommandsIgnoreTheQueue := by
  intro c s
  have hc : IgnoresQueue (exec c) := by
    cases h : sourceOf c with
    | none => exact event_ignoresQueue h
    | some src => exact request_ignoresQueue h
  obtain ⟨t, ht, hq⟩ := hc s
  exact ⟨t, ht, hc.keeps ht, hq⟩

/-- Settles O1, by the two branches of the step. -/
theorem stepRunsFrontCommand : Obligations.StepRunsFrontCommand := by
  refine ⟨fun c s rest h => ?front, fun s h => ?idle⟩
  all_goals rw [step, h]

end Sys2Proof.Machine
